-- ==== Sys2Proof/Word.lean ====
section
/-! DEFINITION. The word types of the block: every width is the one 10_state.md, 20_memory.md or 30_encoding.md states. -/

namespace Sys2Proof

/-- One byte of the serial stream (R66) or of `BODYREG` (R25). -/
abbrev Byte := BitVec 8

/-- A 16-bit wire field (R63), and the registers that hold one (R29, R30, R31). -/
abbrev Half := BitVec 16

/-- A stored sample angle: signed 21-bit two's complement, in units of 1/512 degree (R26, R104). -/
abbrev AngleWord := BitVec 21

/-- A snapshot slot index: `IDX_W` is at most 16 (R8, D10), so every index fits here. -/
abbrev SlotIdx := BitVec 16

/-- A command word: `IDX_W + 3` bits (R70), at most 19. The bits from `IDX_W + 3` up are not on the port. -/
abbrev CmdWord := BitVec 19

/-- The data part of a response (R72). -/
abbrev DataWord := BitVec 45

/-- A response word (R72). -/
abbrev RespWord := BitVec 47

/-- A 1-bit input (R68, R69). -/
abbrev Pin := BitVec 1

end Sys2Proof
end

