-- ==== Sys2Proof/Config.lean ====
section
/-! DEFINITION. The implementation parameters (R7), the constants the source fixes (R9), and what the spec leaves open
as uninterpreted constants. -/

namespace Sys2Proof

/-- The configuration of a block (R7, R34). R144: a `CAPACITY` outside 1 to 65536 has no instance, so a value of this
type carries the proof that its capacity is legal. `CHECKSUM_OK` is `Config.checksumOk` below. -/
structure Config where
  capacity : Nat
  mirrored : Bool
  strict : Bool
  legal : 1 ≤ capacity ∧ capacity ≤ 65536
deriving DecidableEq, Repr

/-- Construction (R144, I15): a configuration whose capacity is outside 1 to 65536 is refused; no block is built. -/
def Config.build (capacity : Nat) (mirrored strict : Bool) : Option Config :=
  if h : 1 ≤ capacity ∧ capacity ≤ 65536 then some ⟨capacity, mirrored, strict, h⟩ else none

/-- The default parameters of R7: `CAPACITY = 480`, `MIRRORED = 1`, `STRICT = 0`. -/
def Config.default : Config := ⟨480, true, false, by decide⟩

/-- R8: `IDX_W = max(1, ceil(log2(CAPACITY)))`. -/
def Config.idxW (c : Config) : Nat := max 1 (Nat.clog 2 c.capacity)

/-- R9, I1: the marker `55 AA 03 08`. -/
def Config.marker : List Byte := [0x55, 0xAA, 0x03, 0x08]

/-- `MARKER[m]` of R9. -/
def Config.markerAt (m : Fin 4) : Byte := Config.marker[m]'(by have := m.isLt; simp [Config.marker])

/-- R9: `BODY_LEN`. -/
def Config.bodyLen : Nat := 32

/-- R9: `FRAME_LEN`, the marker and the body. -/
def Config.frameLen : Nat := Config.marker.length + Config.bodyLen

/-- R9, I5: `NSAMP`, the samples of one packet. -/
def Config.nsamp : Nat := 8

/-- R9, I2: `ANGLE_OFFSET`. -/
def Config.angleOffset : Int := 0xA000

/-- R9, I3: raw angle units per degree. -/
def Config.angleDiv : Int := 64

/-- R9, I3: raw speed units per revolution per minute. The block keeps the raw speed (R113); no rule divides by it. -/
def Config.speedDiv : Int := 64

/-- R9, I4: `WRAP_ADD`, 360 degrees in raw units. -/
def Config.wrapAdd : Int := 360 * Config.angleDiv

/-- R7, I6: the baud rate of the UART outside the block; no rule reads it. -/
def Config.baud : Nat := 115200

/-- A character format of the serial line (D21). -/
structure UartFormat where
  dataBits : Nat
  parity : Bool
  stopBits : Nat
deriving DecidableEq, Repr, Inhabited

/-- OPEN parameter `UART_FORMAT` (D21, I11): no rule of the block reads it. -/
opaque Config.uartFormat : UartFormat

/-- OPEN parameter `CHECKSUM_OK` (R7, R101, D13): a total function of the 36 frame bytes, of which nothing is known. -/
opaque Config.checksumOk : List Byte → Bool

/-- FREE VALUE (log 6): what byte `k` of `BODYREG` holds after the `n`-th reset operation. R160 and I12 give no value. -/
opaque Config.freeByte : Nat → Fin 32 → Byte

end Sys2Proof
end

