-- ==== Sys2Proof/Syntax.lean ====
section
/-! DEFINITION. The block's operations as syntax: one constructor of `Instr` for each row of spec/opcode_table.json, the
phase that selects a byte operation (R22, R85), and the words the ports carry (R66 to R71). -/

namespace Sys2Proof

/-- `PHASE` (R22). -/
inductive Phase where
  | idle
  | hunt
  | body
  | halted
deriving DecidableEq, Repr

/-- The 2-bit value of a phase (R22). -/
def Phase.code : Phase → BitVec 2
  | .idle => 0
  | .hunt => 1
  | .body => 2
  | .halted => 3

/-- The fields of a packet body (R63, R65). -/
@[ext]
structure Fields where
  rawSpeed : Half
  rawStart : Half
  dist : Vector Half 8
  inten : Vector Byte 8
  rawEnd : Half
  cks : Half
deriving DecidableEq, Repr

/-- The operations of the block. `idx` is the index field `cmd[IDX_W+2:3]` of a command word (R71), which only
`RDSNAP` reads (R75). -/
inductive Instr where
  | ready (idx : SlotIdx)
  | snap (idx : SlotIdx)
  | rdsnap (idx : SlotIdx)
  | rpm (idx : SlotIdx)
  | start (idx : SlotIdx)
  | rsv5 (idx : SlotIdx)
  | rsv6 (idx : SlotIdx)
  | rsv7 (idx : SlotIdx)
  | byteHunt (b : Byte)
  | byteBody (b : Byte)
  | frame (f : Fields)
  | reset
  | rxFault
deriving DecidableEq, Repr

/-- The agents of a model of the block (R150). -/
inductive Agent where
  | src
  | prod
  | cons
  | env
deriving DecidableEq, Repr

/-- Whose step an operation is (R150). -/
def Instr.agent : Instr → Agent
  | .ready _ | .snap _ | .rdsnap _ | .rpm _ | .start _ | .rsv5 _ | .rsv6 _ | .rsv7 _ => .cons
  | .byteHunt _ | .byteBody _ | .frame _ => .prod
  | .reset => .env
  | .rxFault => .src

/-- What stands on a port when an operation is selected: a command word (R71), an offered byte (R66), the two pins
(R68, R69), or the bytes of a FRAME line (R78, R79). -/
inductive PortWord where
  | cmd (w : CmdWord)
  | byte (b : Byte)
  | pins (rst rxFault : Pin)
  | frame (bytes : List Byte)
deriving DecidableEq, Repr

end Sys2Proof
end

