-- ==== Sys2Proof/WellFormed.lean ====
section
/-! DEFINITION. When an operation can be presented to a block of a given configuration in a given phase. -/

namespace Sys2Proof

/-- R70, R71: a command's `idx` field has `IDX_W` bits. -/
def SlotIdx.fits (c : Config) (idx : SlotIdx) : Bool := decide (idx.toNat < 2 ^ c.idxW)

/-- R71 bounds a command's `idx`; R85 and the table's notes: BYTE_HUNT is selected by `PHASE = HUNT` and BYTE_BODY by
`PHASE = BODY`. A frame's fields take every value (R65), and a pin event has no operand. -/
def Instr.wellFormed (c : Config) (ph : Phase) : Instr → Bool
  | .ready idx => SlotIdx.fits c idx
  | .snap idx => SlotIdx.fits c idx
  | .rdsnap idx => SlotIdx.fits c idx
  | .rpm idx => SlotIdx.fits c idx
  | .start idx => SlotIdx.fits c idx
  | .rsv5 idx => SlotIdx.fits c idx
  | .rsv6 idx => SlotIdx.fits c idx
  | .rsv7 idx => SlotIdx.fits c idx
  | .byteHunt _ => decide (ph = .hunt)
  | .byteBody _ => decide (ph = .body)
  | .frame _ => true
  | .reset => true
  | .rxFault => true

end Sys2Proof
end

