-- ==== Sys2Proof/Decode.lean ====
section
/-! DEFINITION. From what stands on a port to an operation, and back: the wire frame (R63 to R65), the command word
(R71), the byte port (R85) and the pins (R68, R69, R147 b). -/

namespace Sys2Proof

/-- Why a port word names no operation. -/
inductive DecodeError where
  /-- A command word with a bit from `IDX_W + 3` up: the command port has no such bit (R70). -/
  | commandTooWide
  /-- A FRAME line that has not 36 bytes (R63). -/
  | frameLength
  /-- A FRAME line that does not begin `55 AA 03 08` (R63). -/
  | badMarker
  /-- A byte offered while `in_ready = 0` (R67): it is not accepted. -/
  | byteNotAccepted
  /-- Neither pin is asserted. -/
  | pinsIdle
deriving DecidableEq, Repr

/-- R64: the 16-bit field whose less significant byte is at body offset `k`. -/
def u16le (body : Vector Byte 32) (k : Nat) (h : k + 1 < 32) : Half := body[k + 1] ++ body[k]

/-- R65: the fields of a body. -/
def bodyFields (body : Vector Byte 32) : Fields where
  rawSpeed := u16le body 0 (by decide)
  rawStart := u16le body 2 (by decide)
  dist := Vector.ofFn fun k : Fin 8 => u16le body (4 + 3 * k.val) (by omega)
  inten := Vector.ofFn fun k : Fin 8 => body[6 + 3 * k.val]
  rawEnd := u16le body 28 (by decide)
  cks := u16le body 30 (by decide)

/-- `lo(v) = v mod 256` of R79. -/
def loByte (v : Half) : Byte := v.extractLsb' 0 8

/-- `hi(v) = v div 256` of R79. -/
def hiByte (v : Half) : Byte := v.extractLsb' 8 8

/-- The three bytes of sample `k`'s group (R63). -/
def groupBytes (f : Fields) (k : Fin 8) : List Byte := [loByte f.dist[k], hiByte f.dist[k], f.inten[k]]

/-- R63, R79: the 32 body bytes of a packet, in arrival order. -/
def bodyBytes (f : Fields) : List Byte :=
  [loByte f.rawSpeed, hiByte f.rawSpeed, loByte f.rawStart, hiByte f.rawStart]
    ++ (List.finRange 8).flatMap (groupBytes f)
    ++ [loByte f.rawEnd, hiByte f.rawEnd, loByte f.cks, hiByte f.cks]

/-- R63, R79: the 36 bytes of a wire frame, in arrival order. -/
def frameLine (f : Fields) : List Byte := Config.marker ++ bodyBytes f

/-- Whether a byte sequence is a wire frame (R63): 36 bytes that begin with the marker. -/
def isFrameLine (bs : List Byte) : Bool :=
  decide (bs.length = Config.frameLen) && decide (bs.take 4 = Config.marker)

/-- Body byte `k` of a frame's bytes is frame byte `k + 4` (R63). -/
def lineBody (bs : List Byte) : Vector Byte 32 := Vector.ofFn fun k : Fin 32 => bs.getD (4 + k.val) 0

/-- A FRAME line (R63, R79). -/
def decodeFrame (bs : List Byte) : Except DecodeError Instr :=
  if bs.length ≠ Config.frameLen then .error .frameLength
  else if bs.take 4 ≠ Config.marker then .error .badMarker
  else .ok (.frame (bodyFields (lineBody bs)))

/-- R71: the operation code `cmd[2:0]` selects the command. -/
def commandOf (op : BitVec 3) (idx : SlotIdx) : Instr :=
  if op = 0b000 then .ready idx
  else if op = 0b001 then .snap idx
  else if op = 0b010 then .rdsnap idx
  else if op = 0b011 then .rpm idx
  else if op = 0b100 then .start idx
  else if op = 0b101 then .rsv5 idx
  else if op = 0b110 then .rsv6 idx
  else .rsv7 idx

/-- R71: `op = cmd[2:0]`, `idx = cmd[IDX_W+2:3]`. -/
def decodeCmd (c : Config) (w : CmdWord) : Except DecodeError Instr :=
  if w.toNat < 2 ^ (c.idxW + 3) then .ok (commandOf (w.extractLsb' 0 3) (w.extractLsb' 3 16))
  else .error .commandTooWide

/-- R85: which byte operation an offered byte is depends on `PHASE`, not on the byte. -/
def decodeByte (ph : Phase) (b : Byte) : Except DecodeError Instr :=
  match ph with
  | .hunt => .ok (.byteHunt b)
  | .body => .ok (.byteBody b)
  | .idle => .error .byteNotAccepted
  | .halted => .error .byteNotAccepted

/-- R68, R69 and R147 (b): where both pins are sampled together, reset takes effect over `rx_fault`. -/
def decodePins (rst rxFault : Pin) : Except DecodeError Instr :=
  if rst = 1 then .ok .reset
  else if rxFault = 1 then .ok .rxFault
  else .error .pinsIdle

/-- The operation a port word selects, in a block of configuration `c` and phase `ph`. -/
def decode (c : Config) (ph : Phase) : PortWord → Except DecodeError Instr
  | .cmd w => decodeCmd c w
  | .byte b => decodeByte ph b
  | .pins rst rxFault => decodePins rst rxFault
  | .frame bs => decodeFrame bs

/-- R71: `{idx, op}`. -/
def cmdWord (op : BitVec 3) (idx : SlotIdx) : CmdWord := idx ++ op

/-- What the ports carry for an operation (R63, R66, R68, R69, R71, R79). -/
def encode : Instr → PortWord
  | .ready idx => .cmd (cmdWord 0b000 idx)
  | .snap idx => .cmd (cmdWord 0b001 idx)
  | .rdsnap idx => .cmd (cmdWord 0b010 idx)
  | .rpm idx => .cmd (cmdWord 0b011 idx)
  | .start idx => .cmd (cmdWord 0b100 idx)
  | .rsv5 idx => .cmd (cmdWord 0b101 idx)
  | .rsv6 idx => .cmd (cmdWord 0b110 idx)
  | .rsv7 idx => .cmd (cmdWord 0b111 idx)
  | .byteHunt b => .byte b
  | .byteBody b => .byte b
  | .frame f => .frame (frameLine f)
  | .reset => .pins 1 0
  | .rxFault => .pins 0 1

/-- Byte `k` of a number whose bit 0 is the least significant bit of its first byte. -/
def byteOfNat (w k : Nat) : Byte := BitVec.ofNat 8 (w >>> (8 * k))

/-- The port word that a bare word of spec/opcode_table.json stands for (log 12): the table's words of 32 bits or more
are FRAME lines, its shorter words command words, and a word of no bits a byte of the stream. A number past the widest
command word stands as the widest one of all ones, which a narrower port refuses. -/
def tablePortWord (nbits w : Nat) : PortWord :=
  if nbits = 0 then .byte (byteOfNat w 0)
  else if nbits < 32 then .cmd (BitVec.ofNat 19 (min (w % 2 ^ nbits) (2 ^ 19 - 1)))
  else .frame ((List.range 36).map (byteOfNat (w % 2 ^ nbits)))

/-- The operation the decoder reads from a bare table word, at the default configuration; a byte is read in HUNT. -/
def decodeTableWord (nbits w : Nat) : Option Instr :=
  match decode Config.default .hunt (tablePortWord nbits w) with
  | .ok i => some i
  | .error _ => none

end Sys2Proof
end

