-- ==== Sys2Proof/Machine/State.lean ====
section
/-! DEFINITION. The state of the block (R20 to R37) as plain data, with its ports, and the reasons a step can stop. -/

namespace Sys2Proof.Machine

/-- One sample slot of `RING` or `SNAP` (R26). -/
@[ext]
structure Sample where
  angle : AngleWord
  distance : Half
  intensity : Byte
deriving DecidableEq, Repr

/-- `RING` or `SNAP` (R26, R32, R45): the slots that do not hold `(0, 0, 0)`, as (slot, sample) pairs, slots strictly
rising. The form is `Memory.wf` (log 15). -/
abbrev Memory := List (Nat × Sample)

/-- Whose turn the total order of R53 gives next, with what its input port carries (log 7, log 11, log 17). -/
inductive Turn where
  /-- The CONSUMER issues the command word `w` (R70). -/
  | cmd (w : CmdWord)
  /-- The `rst` and `rx_fault` pins are sampled, and with neither asserted the FRAMER takes an offered byte (R147 b). -/
  | cycle (rst rxFault : Pin)
  /-- The FRAMER takes the 36 bytes of a FRAME line, with no other step between (R78). -/
  | frame
deriving DecidableEq, Repr

/-- What stops the machine. The spec's own abnormal events stop nothing (R140, R148). -/
inductive Fault where
  /-- A commit's first ring write names a slot that does not exist (R45): raised by `commitWith` where
  `WCUR >= CAPACITY`, which no reachable state has (R35 a). Safe: the run stops (log 14). -/
  | ringSlotOutOfRange (slot : Nat)
deriving DecidableEq, Repr

/-- What has no meaning in the model. -/
inductive Refusal where
  /-- An arm of `exec` that gives its operation no meaning; none does. Safe: the run stops. -/
  | notModelled (mnemonic : String)
  /-- A port word that names no operation; raised by `step` for a command word wider than the command port (log 13).
  Safe: the run stops. -/
  | undecodable (e : DecodeError)
deriving DecidableEq, Repr

/-- The state. The first eleven fields are R20's; `cfg` is the parameter of every step (R7), `cfgIn`, `src`, `sched` the
inputs and `resp` the output of the ports, and `freeCtr` the model's own counter for free values. -/
@[ext]
structure State where
  /-- `PHASE` (R22). -/
  phase : Phase
  /-- `MPOS` (R23). -/
  mpos : Fin 4
  /-- `BCNT` (R24). -/
  bcnt : Fin 32
  /-- `BODYREG` (R25). -/
  bodyreg : Vector Byte 32
  /-- `RING` (R26). -/
  ring : Memory
  /-- `WCUR` (R27). -/
  wcur : Nat
  /-- `ROTC` (R28). -/
  rotc : Bool
  /-- `PREV_START` (R29). -/
  prevStart : Half
  /-- `RPM_RAW` (R30). -/
  rpmRaw : Half
  /-- `CKSUM` (R31). -/
  cksum : Half
  /-- `SNAP` (R32). -/
  snap : Memory
  /-- The configuration the block runs with (R7, R34; log 1). -/
  cfg : Config
  /-- The static configuration inputs, which a reset reads (R69, R160; log 2). -/
  cfgIn : Config
  /-- The bytes the SOURCE offers, oldest first (R66, R98; log 7). -/
  src : List Byte
  /-- The turns still to come (R53; log 7). -/
  sched : List Turn
  /-- The response port: `resp_valid` and `resp` (R70, R72; log 9). -/
  resp : Option RespWord
  /-- The model's counter of free values (log 6). -/
  freeCtr : Nat
deriving DecidableEq, Repr

/-- The machine right after reset (R160), at the default configuration (R7), nothing offered and nothing scheduled.
`BODYREG`: the spec gives no value; zeros are a DESIGN CHOICE (log 5), as is `freeCtr` (log 6). -/
def State.reset : State where
  phase := .idle
  mpos := 0
  bcnt := 0
  bodyreg := Vector.replicate 32 0
  ring := []
  wcur := 0
  rotc := false
  prevStart := 0
  rpmRaw := 0
  cksum := 0
  snap := []
  cfg := Config.default
  cfgIn := Config.default
  src := []
  sched := []
  resp := none
  freeCtr := 0

end Sys2Proof.Machine
end

