-- ==== Sys2Proof/Machine/Ops.lean ====
section
/-! DEFINITION. The named operations over the state: sample stores, the response port, abnormal events and reset. -/

namespace Sys2Proof.Machine

/-- The outcome of an operation. -/
abbrev Out := Host.Outcome State Fault Refusal

/-! ### Sample stores (R26, R32, R45, R50) -/

/-- What a slot no entry lists reads as: the reset contents of `RING` and `SNAP` (R26, R32). -/
def Memory.unlisted : Sample := ⟨0, 0, 0⟩

/-- `MemRead` of R12: one whole sample (R50). -/
def Memory.read : Memory → Nat → Sample
  | [], _ => Memory.unlisted
  | (j, x) :: rest, i => if j = i then x else Memory.read rest i

/-- An entry for a sample, or none where the slot then reads as unlisted ones do. -/
def Memory.entry (i : Nat) (x : Sample) : Memory := if x = Memory.unlisted then [] else [(i, x)]

/-- `MemWrite` of R12: one whole sample (R50), keeping the canonical form. -/
def Memory.write : Memory → Nat → Sample → Memory
  | [], i, x => Memory.entry i x
  | (j, y) :: rest, i, x =>
    if j < i then (j, y) :: Memory.write rest i x
    else if j = i then Memory.entry i x ++ rest
    else Memory.entry i x ++ (j, y) :: rest

/-- The canonical form: slots strictly rising, and no entry equal to what an unlisted slot reads as. -/
def Memory.wf (m : Memory) : Bool :=
  decide (m.Pairwise fun a b => a.1 < b.1) && m.all fun e => decide (e.2 ≠ Memory.unlisted)

/-- Every listed slot exists in a store of `n` slots (R45). -/
def Memory.below (n : Nat) (m : Memory) : Bool := m.all fun e => decide (e.1 < n)

/-- The copy of slots `0 .. n-1` of a store (R122). -/
def Memory.copyBelow (n : Nat) (m : Memory) : Memory := m.filter fun e => decide (e.1 < n)

/-! ### Responses (R72 to R74) -/

/-- The status codes of R73; status 3 is never produced (I14). -/
inductive Status where
  | ok
  | errOp
  | errIndex
deriving DecidableEq, Repr

/-- The 2-bit code of a status (R73). -/
def Status.code : Status → BitVec 2
  | .ok => 0
  | .errOp => 1
  | .errIndex => 2

/-- R72: `resp[46:45] = status`, `resp[44:0] = data`. -/
def respWord (st : Status) (data : DataWord) : RespWord := st.code ++ data

/-- `respond(status, data)` of R12: the one response to a command (R70). -/
def respond (st : Status) (data : DataWord) (s : State) : State := { s with resp := some (respWord st data) }

/-- R74: `data[44:24] = angle`, `data[23:8] = distance`, `data[7:0] = intensity`. -/
def sampleData (x : Sample) : DataWord := x.angle ++ x.distance ++ x.intensity

/-! ### The byte input port (R66, R67) -/

/-- R67: `in_ready = 1` exactly when `PHASE` is `HUNT` or `BODY`. -/
def phaseInReady (ph : Phase) : Bool := decide (ph = .hunt) || decide (ph = .body)

/-- The `in_ready` output (R66). -/
def State.inReady (s : State) : Bool := phaseInReady s.phase

/-! ### Abnormal events: entry and return (R140, R141, R145, R148) -/

/-- The causes of R140 that a block can meet. Buffer misconfiguration has no instance (R144). -/
inductive Cause where
  | syncLoss
  | serialFailure
  | checksumMismatch
  | reservedCommand
  | indexOutOfRange
deriving DecidableEq, Repr

/-- `raise Fault(cause)` of R12: the effect and the record of each cause (R140). Nothing is saved and no control goes to
a handler (R148). A serial failure halts the framer and changes nothing else; in `HALTED` it has no effect (R141). -/
def takeException (c : Cause) (s : State) : State :=
  match c with
  | .syncLoss => s
  | .serialFailure => { s with phase := .halted }
  | .checksumMismatch => s
  | .reservedCommand => respond .errOp 0 s
  | .indexOutOfRange => respond .errIndex 0 s

/-- The value of `BODYREG` after the `n`-th reset operation: free (R160, D26; log 6). -/
def freeBody (n : Nat) : Vector Byte 32 := Vector.ofFn (Config.freeByte n)

/-- R160: every element at its reset value and the configuration inputs read afresh. It is the one way out of `HALTED`
(R142, R148, R161). Bytes offered and not accepted stay with the source (R66). -/
def resetBlock (s : State) : State :=
  { s with
    phase := .idle
    mpos := 0
    bcnt := 0
    bodyreg := freeBody s.freeCtr
    ring := []
    wcur := 0
    rotc := false
    prevStart := 0
    rpmRaw := 0
    cksum := 0
    snap := []
    cfg := s.cfgIn
    freeCtr := s.freeCtr + 1 }

end Sys2Proof.Machine
end

