-- ==== Sys2Proof/Machine/Operands.lean ====
section
/-! DEFINITION. The operands of a commit: sweep arithmetic, sample angles and the frame bytes (R101, R103 to R108). -/

namespace Sys2Proof.Machine

/-- R103: `S = rawStart - 40960`, in units of 1/64 degree. -/
def startUnits (f : Fields) : Int := f.rawStart.toNat - Config.angleOffset

/-- R103: `E`, with 23040 added once where `rawEnd < rawStart` as unsigned numbers. -/
def endUnits (f : Fields) : Int :=
  if f.rawEnd.toNat < f.rawStart.toNat then f.rawEnd.toNat - Config.angleOffset + Config.wrapAdd
  else f.rawEnd.toNat - Config.angleOffset

/-- R103: the sweep `D = E - S`. -/
def sweepUnits (f : Fields) : Int := endUnits f - startUnits f

/-- R104: `a_i = 8*S + i*D`, in units of 1/512 degree. -/
def sampleAngle (f : Fields) (i : Nat) : Int := 8 * startUnits f + i * sweepUnits f

/-- R105: the stored angle `A[i]`, negated in mirrored mode. -/
def storedAngle (mirrored : Bool) (f : Fields) (i : Nat) : Int :=
  if mirrored then -sampleAngle f i else sampleAngle f i

/-- R117: the result of lane `i`. The angle fits its 21 bits (R108). -/
def packetSample (mirrored : Bool) (f : Fields) (i : Fin 8) : Sample where
  angle := BitVec.ofInt 21 (storedAngle mirrored f i)
  distance := f.dist[i]
  intensity := f.inten[i]

/-- The eight samples of a packet, in append order (R109). -/
def packetSamples (mirrored : Bool) (f : Fields) : List Sample := (List.finRange 8).map (packetSample mirrored f)

/-- R101: `FRAMEBYTES`, the marker and the 32 body bytes. -/
def frameBytes (body : Vector Byte 32) : List Byte := Config.marker ++ body.toList

/-- R102: whether a captured body is dropped, for the value of `CHECKSUM_OK` given. -/
def isDropped (c : Config) (checksumOk : Bool) : Bool := c.strict && !checksumOk

end Sys2Proof.Machine
end

