-- ==== Sys2Proof/Machine/Flags.lean ====
section
/-! DEFINITION. The block's one flag, `ROTC` (R28, R111, R112). -/

namespace Sys2Proof.Machine

/-- R111: the wrap test, an unsigned 16-bit compare. -/
def isWrap (rawStart prevStart : Half) : Bool := decide (rawStart.toNat < prevStart.toNat)

/-- `ROTC` after a commit: set by a wrap, and never cleared (R111, R112). -/
def rotcAfterCommit (rotc : Bool) (rawStart prevStart : Half) : Bool := if isWrap rawStart prevStart then true else rotc

/-- `ROTC` after a `SNAP` (R122). -/
def rotcAfterSnap : Bool := false

/-- `READY`'s answer, `zext_45(ROTC)` (R74, R121). -/
def rotcData (rotc : Bool) : DataWord := (BitVec.ofBool rotc).setWidth 45

end Sys2Proof.Machine
end

