-- ==== Sys2Proof/Machine/Consumer.lean ====
section
/-! DEFINITION. The CONSUMER's commands (R120 to R128): each runs to completion in any phase (R120) and answers once. -/

namespace Sys2Proof.Machine

/-- R122: `SNAP[j] <- RING[j]` for every slot, and `ROTC <- 0`. -/
def takeSnapshot (s : State) : State :=
  { s with snap := s.ring.copyBelow s.cfg.capacity, rotc := rotcAfterSnap }

/-- R125: `START` acts only from `IDLE`. -/
def startFramer (s : State) : State := if s.phase = .idle then { s with phase := .hunt } else s

/-- A reserved command (R126): `ERR_OP`, no state change. `idx` is ignored (R75). -/
def reservedCommand (s : State) : State := takeException .reservedCommand s

/-- READY (R121). `idx` is ignored (R75). -/
def execReady (_idx : SlotIdx) (s : State) : Out := .next (respond .ok (rotcData s.rotc) s)

/-- SNAP (R122). `idx` is ignored (R75). -/
def execSnap (_idx : SlotIdx) (s : State) : Out := .next (respond .ok 0 (takeSnapshot s))

/-- RDSNAP (R123): `ERR_INDEX` where `idx >= CAPACITY`, else the sample of slot `idx` of the snapshot buffer. -/
def execRdsnap (idx : SlotIdx) (s : State) : Out :=
  if s.cfg.capacity ≤ idx.toNat then .next (takeException .indexOutOfRange s)
  else .next (respond .ok (sampleData (s.snap.read idx.toNat)) s)

/-- RPM (R124). `idx` is ignored (R75). -/
def execRpm (_idx : SlotIdx) (s : State) : Out := .next (respond .ok (s.rpmRaw.setWidth 45) s)

/-- START (R125). `idx` is ignored (R75). -/
def execStart (_idx : SlotIdx) (s : State) : Out := .next (respond .ok 0 (startFramer s))

/-- RSV5 (R126). -/
def execRsv5 (_idx : SlotIdx) (s : State) : Out := .next (reservedCommand s)

/-- RSV6 (R126). -/
def execRsv6 (_idx : SlotIdx) (s : State) : Out := .next (reservedCommand s)

/-- RSV7 (R126). -/
def execRsv7 (_idx : SlotIdx) (s : State) : Out := .next (reservedCommand s)

end Sys2Proof.Machine
end

