-- ==== Sys2Proof/Machine/Commit.lean ====
section
/-! DEFINITION. The packet commit (R100 to R117): field derivation and ring append in one step. -/

namespace Sys2Proof.Machine

/-- R109: one sample to slot `WCUR`, then `WCUR` advances modulo `CAPACITY`. -/
def appendSample (x : Sample) (s : State) : State :=
  { s with ring := s.ring.write s.wcur x, wcur := (s.wcur + 1) % s.cfg.capacity }

/-- R109: the samples of a packet, in order. -/
def appendSamples : List Sample → State → State
  | [], s => s
  | x :: xs, s => appendSamples xs (appendSample x s)

/-- R100, after the ring writes: the wrap test, and the registers that keep the packet's fields (R111, R113, R114). -/
def latchFields (f : Fields) (s : State) : State :=
  { s with
    rotc := rotcAfterCommit s.rotc f.rawStart s.prevStart
    prevStart := f.rawStart
    rpmRaw := f.rawSpeed
    cksum := f.cks }

/-- R92, R100: the framer returns to `HUNT` with `MPOS = 0`. -/
def returnToHunt (s : State) : State := { s with phase := .hunt, mpos := 0 }

/-- The append of R100. The first write names slot `WCUR`; every later one a remainder modulo `CAPACITY`, so only the
first can name a slot that does not exist (R45; log 14). -/
def appendPacket (s : State) : Out :=
  if s.wcur < s.cfg.capacity then
    .next (latchFields (bodyFields s.bodyreg) (appendSamples (packetSamples s.cfg.mirrored (bodyFields s.bodyreg)) s))
  else .fault (.ringSlotOutOfRange s.wcur)

/-- `COMMIT` of R100, with the value of `CHECKSUM_OK(FRAMEBYTES)` as an argument. -/
def commitWith (checksumOk : Bool) (s : State) : Out :=
  if isDropped s.cfg checksumOk then .next (takeException .checksumMismatch (returnToHunt s))
  else appendPacket (returnToHunt s)

/-- `COMMIT` of R100. -/
def commit (s : State) : Out := commitWith (Config.checksumOk (frameBytes s.bodyreg)) s

end Sys2Proof.Machine
end

