-- ==== Sys2Proof/Machine/Framer.lean ====
section
/-! DEFINITION. The FRAMER's operations BYTE_HUNT, BYTE_BODY and FRAME (R85 to R99). -/

namespace Sys2Proof.Machine

/-- R86: the number of marker bytes matched after byte `b`, from `mpos` matched before it. -/
def matchCount (mpos : Fin 4) (b : Byte) : Nat :=
  if b = Config.markerAt mpos then mpos.val + 1
  else if b = Config.markerAt 0 then 1
  else 0

/-- R89: the fourth marker byte has matched. -/
def enterBody (s : State) : State := { s with phase := .body, bcnt := 0, mpos := 0 }

/-- The match position after a byte that does not complete the marker (R86). A byte that does not match is
synchronization loss, which records nothing (R95, R140). -/
def setMatch (m : Nat) (s : State) : State := { s with mpos := Fin.ofNat 4 m }

/-- R86: accept a byte while searching for the marker. -/
def huntByte (b : Byte) (s : State) : State :=
  if matchCount s.mpos b = 4 then enterBody s
  else if matchCount s.mpos b = 0 then takeException .syncLoss (setMatch 0 s)
  else setMatch (matchCount s.mpos b) s

/-- R90: `BODYREG[BCNT] <- b`. -/
def storeBodyByte (b : Byte) (s : State) : State := { s with bodyreg := s.bodyreg.set s.bcnt b }

/-- The body byte count (R24). -/
def setBcnt (n : Fin 32) (s : State) : State := { s with bcnt := n }

/-- R90: accept one body byte; the 32nd commits in the same step. -/
def bodyByte (b : Byte) (s : State) : Out :=
  if s.bcnt = 31 then commit (setBcnt 0 (storeBodyByte b s))
  else .next (setBcnt (s.bcnt + 1) (storeBodyByte b s))

/-- R85: the FRAMER's step for one offered byte. In `IDLE` and `HALTED` it is not accepted and nothing changes (R94). -/
def acceptByte (b : Byte) (s : State) : Out :=
  match s.phase with
  | .hunt => .next (huntByte b s)
  | .body => bodyByte b s
  | .idle => .next s
  | .halted => .next s

/-- R78: the bytes of a line, accepted one after another with no other step between. -/
def acceptBytes : List Byte → State → Out
  | [], s => .next s
  | b :: bs, s =>
    match acceptByte b s with
    | .next t => acceptBytes bs t
    | .fault r => .fault r
    | .refused r => .refused r

/-- BYTE_HUNT (R86). It is enabled only in `HUNT` (R85); elsewhere it is no step and changes nothing (log 10). -/
def execByteHunt (b : Byte) (s : State) : Out :=
  if s.phase = .hunt then .next (huntByte b s) else .next s

/-- BYTE_BODY (R90). It is enabled only in `BODY` (R85); elsewhere it is no step and changes nothing (log 10). -/
def execByteBody (b : Byte) (s : State) : Out :=
  if s.phase = .body then bodyByte b s else .next s

/-- FRAME (R78, R79, R100): the 36 bytes of a wire frame, accepted in order; from `HUNT` its completion commits the
frame's fields (log 11). -/
def execFrame (f : Fields) (s : State) : Out := acceptBytes (frameLine f) s

end Sys2Proof.Machine
end

