-- ==== Sys2Proof/Machine/Pins.lean ====
section
/-! DEFINITION. The pin events RESET (R160, R161) and RX_FAULT (R141, R142). -/

namespace Sys2Proof.Machine

/-- RESET (R160): in any state (R161). -/
def execReset (s : State) : Out := .next (resetBlock s)

/-- RX_FAULT (R141): the serial I/O failure. -/
def execRxFault (s : State) : Out := .next (takeException .serialFailure s)

end Sys2Proof.Machine
end

