-- ==== Sys2Proof/Machine/Dispatch.lean ====
section
/-! DEFINITION. One arm for each operation of spec/opcode_table.json. -/

namespace Sys2Proof.Machine

def exec (i : Instr) (s : State) : Host.Outcome State Fault Refusal :=
  match i with
  | .ready idx => Sys2Proof.Machine.execReady idx s
  | .snap idx => Sys2Proof.Machine.execSnap idx s
  | .rdsnap idx => Sys2Proof.Machine.execRdsnap idx s
  | .rpm idx => Sys2Proof.Machine.execRpm idx s
  | .start idx => Sys2Proof.Machine.execStart idx s
  | .rsv5 idx => Sys2Proof.Machine.execRsv5 idx s
  | .rsv6 idx => Sys2Proof.Machine.execRsv6 idx s
  | .rsv7 idx => Sys2Proof.Machine.execRsv7 idx s
  | .byteHunt b => Sys2Proof.Machine.execByteHunt b s
  | .byteBody b => Sys2Proof.Machine.execByteBody b s
  | .frame f => Sys2Proof.Machine.execFrame f s
  | .reset => Sys2Proof.Machine.execReset s
  | .rxFault => Sys2Proof.Machine.execRxFault s

end Sys2Proof.Machine
end

