-- ==== Sys2Proof/Machine/Fetch.lean ====
section
/-! DEFINITION. Which agent's turn it is, and what its port carries (R53, R66, R78, R147; log 7). Taking a byte from the
SOURCE is R12's `accept(b)`: exactly once and in order (R98). -/

namespace Sys2Proof.Machine

/-- One FRAMER turn: the oldest offered byte, if there is one and `in_ready = 1` (R66, R85); else the FRAMER waits and
the byte stays with the source (R93, R94). -/
def fetchByte (s : State) : Option PortWord × State :=
  match s.inReady, s.src with
  | true, b :: rest => (some (.byte b), { s with src := rest })
  | _, _ => (none, s)

/-- A turn for a whole FRAME line (R78): its 36 bytes, where the next 36 offered are a frame and `in_ready = 1`; else
the FRAMER's ordinary turn (log 11). -/
def fetchFrame (s : State) : Option PortWord × State :=
  if s.inReady && isFrameLine (s.src.take Config.frameLen) then
    (some (.frame (s.src.take Config.frameLen)), { s with src := s.src.drop Config.frameLen })
  else fetchByte s

/-- A turn in which the pins are sampled: an asserted pin takes effect over an offered byte, which stays with the source
(R147 b). -/
def fetchCycle (rst rxFault : Pin) (s : State) : Option PortWord × State :=
  if rst = 1 ∨ rxFault = 1 then (some (.pins rst rxFault), s) else fetchByte s

/-- What a turn presents to the block. -/
def fetchTurn (t : Turn) (s : State) : Option PortWord × State :=
  match t with
  | .cmd w => (some (.cmd w), s)
  | .cycle rst rxFault => fetchCycle rst rxFault s
  | .frame => fetchFrame s

/-- The step's preparation: the next turn leaves the schedule, and `resp_valid` falls, since a response belongs to its
own command's step (R70; log 9). -/
def beginStep (rest : List Turn) (s : State) : State := { s with sched := rest, resp := none }

/-- What the next step runs, if any agent has a step, and the state it runs it in. -/
def fetch (s : State) : Option PortWord × State :=
  match s.sched with
  | [] => (none, beginStep [] s)
  | t :: ts => fetchTurn t (beginStep ts s)

/-- Puts a port word where the next step fetches: its turn at the head of the schedule and its bytes at the head of what
the SOURCE offers; for stream words the framer accepts bytes (log 8). -/
def presentWord (w : PortWord) (s : State) : State :=
  match w with
  | .cmd c => { s with sched := .cmd c :: s.sched }
  | .byte b => { s with
      sched := .cycle 0 0 :: s.sched
      src := b :: s.src
      phase := if s.inReady then s.phase else .hunt }
  | .pins rst rxFault => { s with sched := .cycle rst rxFault :: s.sched }
  | .frame bs => { s with
      sched := .frame :: s.sched
      src := bs ++ s.src
      phase := if s.inReady then s.phase else .hunt }

end Sys2Proof.Machine
end

