-- ==== Sys2Proof/Machine/Step.lean ====
section
/-! DEFINITION. One step of the block's total order of steps (R13, R53). -/

namespace Sys2Proof.Machine

/-- One step: the next turn's port word is decoded and run. A turn in which no agent has a step is a wait (R93, R94). -/
def step (s : State) : Host.Outcome State Fault Refusal :=
  match (fetch s).1 with
  | none => .next (fetch s).2
  | some w =>
    match decode s.cfg s.phase w with
    | .ok i => exec i (fetch s).2
    | .error e => .refused (.undecodable e)

/-- `s` with a bare word of spec/opcode_table.json where `step` fetches its next operation (log 8, log 12). -/
def State.withFetchWord (s : State) (nbits w : Nat) : State := presentWord (tablePortWord nbits w) s

end Sys2Proof.Machine
end

