-- ==== Sys2Proof/Safety.lean ====
section
/-! DEFINITION. What holds in every reachable state (R35), in the terms statements use. -/

namespace Sys2Proof.Machine

/-- R35 (d): the stored angles of a store lie in `[-357873, 357873]`. -/
def Memory.anglesBounded (m : Memory) : Bool :=
  m.all fun e => decide (-357873 ≤ e.2.angle.toInt) && decide (e.2.angle.toInt ≤ 357873)

/-- A store of `n` slots in canonical form, every listed slot existing (R45), every angle in range (R35 d). -/
def Memory.sound (n : Nat) (m : Memory) : Bool := m.wf && m.below n && m.anglesBounded

/-- The invariants (a) to (d) of R35, with the stores' canonical form. (b) is in the types of `mpos` and `bcnt`. -/
structure State.Inv (s : State) : Prop where
  wcur_lt : s.wcur < s.cfg.capacity
  bcnt_zero : s.phase = .idle ∨ s.phase = .hunt → s.bcnt = 0
  mpos_zero : s.phase = .idle ∨ s.phase = .body → s.mpos = 0
  ring_sound : s.ring.sound s.cfg.capacity = true
  snap_sound : s.snap.sound s.cfg.capacity = true

/-- The sequencing triple (R21). -/
def State.triple (s : State) : Phase × Fin 4 × Fin 32 := (s.phase, s.mpos, s.bcnt)

/-- The elements the FRAMER owns: no command writes one of them (R33, R149). -/
def State.framerData (s : State) : Memory × Nat × Half × Half × Half × Fin 4 × Fin 32 × Vector Byte 32 :=
  (s.ring, s.wcur, s.prevStart, s.rpmRaw, s.cksum, s.mpos, s.bcnt, s.bodyreg)

/-- The two states differ at most in `BODYREG` bytes the packet being captured has not written (R25, D26). -/
def State.sameButStaleBody (s t : State) : Prop :=
  { s with bodyreg := t.bodyreg } = t ∧
    (s.phase = .body → ∀ k : Fin 32, k < s.bcnt → s.bodyreg[k] = t.bodyreg[k])

/-- Slot `j` is written by sample `i` of a packet appended at `wcur`, and by no later sample of it (R109, R110 b). -/
def isLastWriter (capacity wcur j : Nat) (i : Fin 8) : Prop :=
  (wcur + i.val) % capacity = j ∧ ∀ k : Fin 8, i < k → (wcur + k.val) % capacity ≠ j

/-- `status` of a response word (R72). -/
def respStatus (w : RespWord) : BitVec 2 := w.extractLsb' 45 2

/-- `data` of a response word (R72). -/
def respData (w : RespWord) : DataWord := w.extractLsb' 0 45

end Sys2Proof.Machine
end

