-- ==== Sys2Proof/Certificates/Slice0/Obligations.lean ====
section
/-! DEFINITION. What is claimed of the model, as statements for the provers. -/

open Sys2Proof Sys2Proof.Machine

/-! ### Encodings (R63 to R81) -/

/-- Decoding what the ports carry for a well-formed operation gives that operation, every operand at every value. -/
def Obligations.DecodeInvertsEncode : Prop :=
  ∀ (c : Config) (ph : Phase) (i : Instr), i.wellFormed c ph = true → decode c ph (encode i) = .ok i

/-- R70, R71: each word of the command port is one well-formed command's, and encodes back to itself. A wider word is no
word of the port: it is refused (the model's choice, log 13). -/
def Obligations.CommandWordsDecodeOneToOne : Prop :=
  ∀ (c : Config) (ph : Phase) (w : CmdWord),
    if w.toNat < 2 ^ (c.idxW + 3) then
      ∃ i, decode c ph (.cmd w) = .ok i ∧ i.wellFormed c ph = true ∧ i.agent = .cons ∧ encode i = .cmd w
    else decode c ph (.cmd w) = .error .commandTooWide

/-- R63: any 36 bytes that begin with the marker are the frame of exactly one packet's fields; no other bytes are. -/
def Obligations.FrameLinesDecodeOneToOne : Prop :=
  ∀ (c : Config) (ph : Phase) (bs : List Byte),
    if bs.length = 36 ∧ bs.take 4 = [0x55, 0xAA, 0x03, 0x08] then
      ∃ f, decode c ph (.frame bs) = .ok (.frame f) ∧ encode (.frame f) = .frame bs ∧
        ∀ g, encode (.frame g) = .frame bs → g = f
    else ∀ i, decode c ph (.frame bs) ≠ .ok i

/-- R64, R65: every field at its offset, the byte that arrives first the less significant, unsigned. -/
def Obligations.FieldsAreLittleEndian : Prop :=
  ∀ (body : Vector Byte 32),
    (bodyFields body).rawSpeed.toNat = body[0].toNat + 256 * body[1].toNat ∧
    (bodyFields body).rawStart.toNat = body[2].toNat + 256 * body[3].toNat ∧
    (∀ k : Fin 8, ((bodyFields body).dist[k]).toNat
      = body[4 + 3 * k.val].toNat + 256 * body[5 + 3 * k.val].toNat) ∧
    (∀ k : Fin 8, (bodyFields body).inten[k] = body[6 + 3 * k.val]) ∧
    (bodyFields body).rawEnd.toNat = body[28].toNat + 256 * body[29].toNat ∧
    (bodyFields body).cks.toNat = body[30].toNat + 256 * body[31].toNat

/-- R80: the command words the spec writes out, at `CAPACITY = 480`. -/
def Obligations.CommandWordExamples : Prop :=
  ∀ ph, decode Config.default ph (.cmd 0x000) = .ok (.ready 0) ∧
    decode Config.default ph (.cmd 0x001) = .ok (.snap 0) ∧
    decode Config.default ph (.cmd 0x02A) = .ok (.rdsnap 5) ∧
    decode Config.default ph (.cmd 0xEFA) = .ok (.rdsnap 479) ∧
    decode Config.default ph (.cmd 0xF02) = .ok (.rdsnap 480) ∧
    decode Config.default ph (.cmd 0x003) = .ok (.rpm 0) ∧
    decode Config.default ph (.cmd 0x004) = .ok (.start 0) ∧
    decode Config.default ph (.cmd 0x007) = .ok (.rsv7 0)

/-- R81: the frame the spec writes out byte by byte, and its fields. -/
def Obligations.FrameExampleDecodes : Prop :=
  ∀ (c : Config) (ph : Phase), ∃ f,
    decode c ph (.frame [0x55, 0xAA, 0x03, 0x08, 0x00, 0x4B, 0x00, 0xA0, 0xE8, 0x03, 0x10, 0xE9, 0x03, 0x11, 0xEA, 0x03,
      0x12, 0xEB, 0x03, 0x13, 0xEC, 0x03, 0x14, 0xED, 0x03, 0x15, 0xEE, 0x03, 0x16, 0xEF, 0x03, 0x17, 0x00, 0xA2, 0x00,
      0x00]) = .ok (.frame f) ∧
    f.rawSpeed = 0x4B00 ∧ f.rawStart = 0xA000 ∧ f.rawEnd = 0xA200 ∧ f.cks = 0 ∧
    ∀ k : Fin 8, (f.dist[k]).toNat = 1000 + k.val ∧ (f.inten[k]).toNat = 16 + k.val

/-- R8: `IDX_W` is the least width, and at least 1, at which an index reaches every slot; by default it is 9. -/
def Obligations.IndexWidthIsLeast : Prop :=
  Config.default.idxW = 9 ∧ ∀ c : Config, 1 ≤ c.idxW ∧ c.idxW ≤ 16 ∧ c.capacity ≤ 2 ^ c.idxW ∧
    ∀ k, 1 ≤ k → c.capacity ≤ 2 ^ k → c.idxW ≤ k

/-- R144: a capacity outside 1 to 65536 has no configuration; any other has the one asked for. -/
def Obligations.IllegalCapacityIsRefused : Prop :=
  ∀ (n : Nat) (m st : Bool),
    if 1 ≤ n ∧ n ≤ 65536 then
      ∃ c, Config.build n m st = some c ∧ c.capacity = n ∧ c.mirrored = m ∧ c.strict = st
    else Config.build n m st = none

/-! ### Steps and the ports (R13, R53, R66 to R70, R93, R98, R147) -/

/-- A step runs the operation decoded from what the next turn presents: the turn leaves the schedule, the response of an
earlier step is gone, and the bytes taken leave the source. The form of turns and ports is the model's choice (log 7,
log 9, log 11). -/
def Obligations.StepRunsDecodedOperation : Prop :=
  ∀ (s : State) (ts : List Turn) (i : Instr), i.wellFormed s.cfg s.phase = true →
    (∀ w, s.sched = .cmd w :: ts → decode s.cfg s.phase (.cmd w) = .ok i →
      step s = exec i { s with sched := ts, resp := none }) ∧
    (∀ rst rxFault, s.sched = .cycle rst rxFault :: ts → rst = 1 ∨ rxFault = 1 →
      decode s.cfg s.phase (.pins rst rxFault) = .ok i →
      step s = exec i { s with sched := ts, resp := none }) ∧
    (∀ b rest, s.sched = .cycle 0 0 :: ts → s.src = b :: rest → decode s.cfg s.phase (.byte b) = .ok i →
      step s = exec i { s with sched := ts, resp := none, src := rest }) ∧
    (∀ line rest, s.sched = .frame :: ts → s.inReady = true → s.src = line ++ rest →
      decode s.cfg s.phase (.frame line) = .ok i →
      step s = exec i { s with sched := ts, resp := none, src := rest })

/-- R93, R94: a FRAMER turn with no byte offered, or in `IDLE` or `HALTED`, changes no state of the block, and an offered
byte stays with the source; so does a step with no turn left (log 19). -/
def Obligations.WaitingChangesNothing : Prop :=
  ∀ (s : State) (ts : List Turn),
    (s.sched = .cycle 0 0 :: ts ∨ s.sched = .frame :: ts ∨ (s.sched = [] ∧ ts = [])) →
    (s.sched = [] ∨ s.src = [] ∨ s.phase = .idle ∨ s.phase = .halted) →
    step s = .next { s with sched := ts, resp := none }

/-- R147 (b): reset takes effect over everything else, and `rx_fault` over an offered byte, which is not accepted. That
one turn carries both pins is the model's choice (log 17). -/
def Obligations.ResetThenFaultThenByte : Prop :=
  ∀ (s : State) (ts : List Turn) (rst rxFault : Pin), s.sched = .cycle rst rxFault :: ts →
    (rst = 1 → step s = exec .reset { s with sched := ts, resp := none }) ∧
    (rst = 0 → rxFault = 1 → step s = exec .rxFault { s with sched := ts, resp := none })

/-- R67: the framer's ready output. -/
def Obligations.ReadyOutputFollowsPhase : Prop :=
  ∀ s : State, s.inReady = true ↔ (s.phase = .hunt ∨ s.phase = .body)

/-- R98: what a step takes from the source is the oldest of what is offered, and the rest stays, in order. A step takes
nothing, one byte, or a whole frame (the model's `frame` turn, log 11). -/
def Obligations.BytesAreTakenOnceInOrder : Prop :=
  ∀ s t : State, step s = .next t →
    ∃ taken, s.src = taken ++ t.src ∧ (taken.length = 0 ∨ taken.length = 1 ∨ taken.length = 36)

/-! ### Consumer commands (R120 to R128) -/

/-- R121: READY answers `ROTC` in any state and changes nothing. -/
def Obligations.ReadyAnswersFlag : Prop :=
  ∀ (idx : SlotIdx) (s : State), ∃ w, exec (.ready idx) s = .next { s with resp := some w } ∧
    respStatus w = 0 ∧ respData w = if s.rotc then 1 else 0

/-- R122: SNAP copies every slot, clears the flag, answers OK, and changes nothing else. -/
def Obligations.SnapCopiesRingAndClearsFlag : Prop :=
  ∀ (idx : SlotIdx) (s : State), ∃ t w, exec (.snap idx) s = .next t ∧
    (∀ j, j < s.cfg.capacity → t.snap.read j = s.ring.read j) ∧
    t.rotc = false ∧ t.resp = some w ∧ respStatus w = 0 ∧ respData w = 0 ∧
    { t with snap := s.snap, rotc := s.rotc, resp := s.resp } = s

/-- R51: a second SNAP with no commit between leaves what the first left. -/
def Obligations.SnapIsIdempotent : Prop :=
  ∀ (i j : SlotIdx) (s : State), ∃ t, exec (.snap i) s = .next t ∧ exec (.snap j) t = .next t

/-- R123, R74: RDSNAP answers the sample of an existing slot, field by field, and `ERR_INDEX` for any other index. -/
def Obligations.RdsnapReadsOneSlot : Prop :=
  ∀ (idx : SlotIdx) (s : State), ∃ w, exec (.rdsnap idx) s = .next { s with resp := some w } ∧
    if idx.toNat < s.cfg.capacity then
      respStatus w = 0 ∧
      w.extractLsb' 24 21 = (s.snap.read idx.toNat).angle ∧
      w.extractLsb' 8 16 = (s.snap.read idx.toNat).distance ∧
      w.extractLsb' 0 8 = (s.snap.read idx.toNat).intensity
    else respStatus w = 2 ∧ respData w = 0

/-- R124, R74: RPM answers the raw speed and changes nothing. -/
def Obligations.RpmAnswersRawSpeed : Prop :=
  ∀ (idx : SlotIdx) (s : State), ∃ w, exec (.rpm idx) s = .next { s with resp := some w } ∧
    respStatus w = 0 ∧ (respData w).toNat = s.rpmRaw.toNat

/-- R125: START moves `IDLE` to `HUNT`, changes nothing in any other phase, and answers OK in every one. -/
def Obligations.StartActsOnlyFromIdle : Prop :=
  ∀ (idx : SlotIdx) (s : State), ∃ w,
    exec (.start idx) s =
      .next { s with phase := if s.phase = .idle then .hunt else s.phase, resp := some w } ∧
    respStatus w = 0 ∧ respData w = 0

/-- R126: each reserved code `op` answers `ERR_OP` with data 0 and changes nothing, in every state. -/
def Obligations.ReservedCommandsAnswerErrOp : Prop :=
  ∀ (idx : SlotIdx) (s : State), ∃ w, respStatus w = 1 ∧ respData w = 0 ∧
    exec (.rsv5 idx) s = .next { s with resp := some w } ∧
    exec (.rsv6 idx) s = .next { s with resp := some w } ∧
    exec (.rsv7 idx) s = .next { s with resp := some w } ∧
    (∃ c, encode (.rsv5 idx) = .cmd c ∧ c.extractLsb' 0 3 = 0b101) ∧
    (∃ c, encode (.rsv6 idx) = .cmd c ∧ c.extractLsb' 0 3 = 0b110) ∧
    ∃ c, encode (.rsv7 idx) = .cmd c ∧ c.extractLsb' 0 3 = 0b111

/-- R75: the index of every command but RDSNAP has no effect. -/
def Obligations.IndexIsIgnoredElsewhere : Prop :=
  ∀ (i j : SlotIdx) (s : State),
    exec (.ready i) s = exec (.ready j) s ∧ exec (.snap i) s = exec (.snap j) s ∧
    exec (.rpm i) s = exec (.rpm j) s ∧ exec (.start i) s = exec (.start j) s ∧
    exec (.rsv5 i) s = exec (.rsv5 j) s ∧ exec (.rsv6 i) s = exec (.rsv6 j) s ∧
    exec (.rsv7 i) s = exec (.rsv7 j) s

/-- R70, R120, R149: every command completes in every state, answers, and writes nothing the FRAMER owns; a command with
an error status changes no state and answers data 0 (R73, R145). -/
def Obligations.CommandsCompleteAndKeepFramerData : Prop :=
  ∀ (i : Instr) (s : State), i.agent = .cons →
    ∃ t w, exec i s = .next t ∧ t.resp = some w ∧ t.framerData = s.framerData ∧
      (respStatus w ≠ 0 → respData w = 0 ∧ { t with resp := s.resp } = s)

/-! ### The framer (R85 to R99) -/

/-- R87, R89: the complete transition table of BYTE_HUNT, and that it changes nothing else. -/
def Obligations.HuntTransitionTable : Prop :=
  ∀ (b : Byte) (s : State), s.phase = .hunt →
    exec (.byteHunt b) s = .next
      (if s.mpos = 3 ∧ b = 0x08 then { s with phase := .body, bcnt := 0, mpos := 0 }
       else { s with mpos :=
        if b = 0x55 then 1
        else if s.mpos = 1 ∧ b = 0xAA then 2
        else if s.mpos = 2 ∧ b = 0x03 then 3
        else 0 })

/-- R88: from `MPOS = 0`, the search enters `BODY` at the first byte at which the last four are the marker. Until
then only `MPOS` changes, and it is the length of the longest suffix that is a proper prefix of the marker. -/
def Obligations.SearchFindsFirstMarker : Prop :=
  ∀ (bs : List Byte) (s : State), s.phase = .hunt → s.mpos = 0 →
    (¬ [0x55, 0xAA, 0x03, 0x08] <:+: bs →
      ∃ m : Fin 4, acceptBytes bs s = .next { s with mpos := m } ∧
        Config.marker.take m.val <:+ bs ∧ ∀ n, n < 4 → Config.marker.take n <:+ bs → n ≤ m.val) ∧
    ([0x55, 0xAA, 0x03, 0x08] <:+ bs → ¬ [0x55, 0xAA, 0x03, 0x08] <:+: bs.dropLast →
      acceptBytes bs s = .next { s with phase := .body, bcnt := 0, mpos := 0 })

/-- R90: a body byte before the 32nd is stored at `BCNT`, and nothing but `BODYREG` and `BCNT` changes. -/
def Obligations.BodyByteIsCaptured : Prop :=
  ∀ (b : Byte) (s : State), s.phase = .body → s.bcnt ≠ 31 →
    ∃ t, exec (.byteBody b) s = .next t ∧ t.bcnt.val = s.bcnt.val + 1 ∧
      (∀ k : Fin 32, t.bodyreg[k] = if k = s.bcnt then b else s.bodyreg[k]) ∧
      { t with bcnt := s.bcnt, bodyreg := s.bodyreg } = s

/-- R91: in `BODY` no byte is compared with the marker: bytes short of the 32nd are stored in order, whatever they are. -/
def Obligations.BodyBytesAreData : Prop :=
  ∀ (bs : List Byte) (s : State), s.phase = .body → s.bcnt.val + bs.length ≤ 31 →
    ∃ t, acceptBytes bs s = .next t ∧ t.bcnt.val = s.bcnt.val + bs.length ∧
      (∀ k : Fin 32, t.bodyreg[k] =
        if s.bcnt.val ≤ k.val ∧ k.val < s.bcnt.val + bs.length then bs.getD (k.val - s.bcnt.val) 0
        else s.bodyreg[k]) ∧
      { t with bcnt := s.bcnt, bodyreg := s.bodyreg } = s

/-- R85, R94: a byte operation in a phase that does not select it, and a frame in `IDLE` or `HALTED`, is no step and
changes nothing. That `exec` then answers the same state is the model's choice (log 10, log 11). -/
def Obligations.DisabledByteOperationsChangeNothing : Prop :=
  ∀ (b : Byte) (f : Fields) (s : State),
    (s.phase ≠ .hunt → exec (.byteHunt b) s = .next s) ∧
    (s.phase ≠ .body → exec (.byteBody b) s = .next s) ∧
    (s.phase = .idle ∨ s.phase = .halted → exec (.frame f) s = .next s)

/-- R97: every transition of (`PHASE`, `MPOS`, `BCNT`), for each operation; where no byte is accepted there is none. A
FRAME is 36 such transitions: the line gives where they lead from `HUNT`. What a byte operation or a FRAME does where no
byte is accepted is the model's choice (log 10, log 11). -/
def Obligations.ControlFlowTable : Prop :=
  ∀ (i : Instr) (s t : State), s.Inv → exec i s = .next t →
    match i with
    | .reset => t.triple = (.idle, 0, 0)
    | .rxFault => t.triple = (.halted, s.mpos, s.bcnt)
    | .start _ => t.triple = if s.phase = .idle then (.hunt, 0, 0) else s.triple
    | .byteHunt b =>
      (s.phase = .hunt →
        t.triple = if s.mpos = 3 ∧ b = 0x08 then (.body, 0, 0)
          else (.hunt, if b = Config.markerAt s.mpos then s.mpos + 1 else if b = 0x55 then 1 else 0, 0)) ∧
      (s.phase = .idle ∨ s.phase = .halted → t.triple = s.triple)
    | .byteBody _ =>
      (s.phase = .body → t.triple = if s.bcnt = 31 then (.hunt, 0, 0) else (.body, 0, s.bcnt + 1)) ∧
      (s.phase = .idle ∨ s.phase = .halted → t.triple = s.triple)
    | .frame _ =>
      (s.phase = .hunt → t.triple = (.hunt, 0, 0)) ∧ (s.phase = .idle ∨ s.phase = .halted → t.triple = s.triple)
    | .ready _ => t.triple = s.triple
    | .snap _ => t.triple = s.triple
    | .rdsnap _ => t.triple = s.triple
    | .rpm _ => t.triple = s.triple
    | .rsv5 _ => t.triple = s.triple
    | .rsv6 _ => t.triple = s.triple
    | .rsv7 _ => t.triple = s.triple

/-! ### The commit (R100 to R117) -/

/-- R100, R109, R111, R113, R114: the 32nd body byte, where the frame is not dropped, completes with the registers below
and everything but these and `RING` unchanged. -/
def Obligations.LastBodyByteCommits : Prop :=
  ∀ (b : Byte) (s : State) (body : Vector Byte 32), s.phase = .body → s.bcnt = 31 →
    s.wcur < s.cfg.capacity → body = s.bodyreg.set 31 b →
    (s.cfg.strict = false ∨ Config.checksumOk ([0x55, 0xAA, 0x03, 0x08] ++ body.toList) = true) →
    ∃ t, exec (.byteBody b) s = .next t ∧
      t.triple = (.hunt, 0, 0) ∧ t.bodyreg = body ∧
      t.wcur = (s.wcur + 8) % s.cfg.capacity ∧
      (t.rotc = true ↔ s.rotc = true ∨ (bodyFields body).rawStart.toNat < s.prevStart.toNat) ∧
      t.prevStart = (bodyFields body).rawStart ∧
      t.rpmRaw = (bodyFields body).rawSpeed ∧
      t.cksum = (bodyFields body).cks ∧
      { t with
        phase := s.phase, mpos := s.mpos, bcnt := s.bcnt, bodyreg := s.bodyreg, ring := s.ring, wcur := s.wcur
        rotc := s.rotc, prevStart := s.prevStart, rpmRaw := s.rpmRaw, cksum := s.cksum } = s

/-- R109, R110 (b), R117: after a commit `WCUR` has advanced by 8, each slot holds the last sample written to it, lane
`i` going to slot `(WCUR + i) mod CAPACITY`, and a slot no sample is written to reads as before. -/
def Obligations.CommitWritesItsSlots : Prop :=
  ∀ (b : Byte) (s : State) (body : Vector Byte 32), s.phase = .body → s.bcnt = 31 →
    s.wcur < s.cfg.capacity → s.ring.wf = true → body = s.bodyreg.set 31 b →
    (s.cfg.strict = false ∨ Config.checksumOk ([0x55, 0xAA, 0x03, 0x08] ++ body.toList) = true) →
    ∃ t, exec (.byteBody b) s = .next t ∧ t.wcur = (s.wcur + 8) % s.cfg.capacity ∧
      (∀ (j : Nat) (i : Fin 8), isLastWriter s.cfg.capacity s.wcur j i →
        (t.ring.read j).angle = BitVec.ofInt 21 (storedAngle s.cfg.mirrored (bodyFields body) i.val) ∧
        (t.ring.read j).distance = (bodyFields body).dist[i] ∧
        (t.ring.read j).intensity = (bodyFields body).inten[i]) ∧
      (∀ j, (∀ i : Fin 8, (s.wcur + i.val) % s.cfg.capacity ≠ j) → t.ring.read j = s.ring.read j)

/-- R101, R102: the 32nd body byte commits on `CHECKSUM_OK` of the marker and the whole body. With `STRICT = 1` a frame
it rejects is dropped, the framer returning to `HUNT` with all else unchanged; one it accepts is committed; with
`STRICT = 0` its answer has no effect. -/
def Obligations.ChecksumGate : Prop :=
  ∀ (b : Byte) (s t : State), s.phase = .body → s.bcnt = 31 →
    t = { s with bcnt := 0, bodyreg := s.bodyreg.set 31 b } →
    exec (.byteBody b) s = commitWith (Config.checksumOk ([0x55, 0xAA, 0x03, 0x08] ++ t.bodyreg.toList)) t ∧
    (s.cfg.strict = true → commitWith false t = .next { t with phase := .hunt, mpos := 0 }) ∧
    (s.wcur < s.cfg.capacity →
      ∃ u, commitWith true t = .next u ∧ u.wcur = (s.wcur + 8) % s.cfg.capacity) ∧
    (s.cfg.strict = false → commitWith false t = commitWith true t)

/-- R103: the start and end angles and the sweep in 1/64 degree, with their ranges. 23040 is added at most once, and the
sweep is negative exactly where `rawEnd < rawStart - 23040`. -/
def Obligations.SweepFollowsRawAngles : Prop :=
  ∀ f : Fields,
    startUnits f = (f.rawStart.toNat : Int) - 40960 ∧ -40960 ≤ startUnits f ∧ startUnits f ≤ 24575 ∧
    endUnits f = (f.rawEnd.toNat : Int) - 40960 + (if f.rawEnd.toNat < f.rawStart.toNat then 23040 else 0) ∧
    sweepUnits f = endUnits f - startUnits f ∧ -42495 ≤ sweepUnits f ∧ sweepUnits f ≤ 65535 ∧
    (sweepUnits f < 0 ↔ (f.rawEnd.toNat : Int) < (f.rawStart.toNat : Int) - 23040)

/-- R103, R104: `a_i = 8*S + i*D` written out in the raw fields, 23040 added once where `rawEnd < rawStart`. -/
def Obligations.SampleAngleFormula : Prop :=
  ∀ (f : Fields) (i : Fin 8),
    sampleAngle f i.val = 8 * ((f.rawStart.toNat : Int) - 40960) + i.val *
      ((f.rawEnd.toNat : Int) - f.rawStart.toNat + if f.rawEnd.toNat < f.rawStart.toNat then 23040 else 0)

/-- R105, R106, R108: a stored angle is exact, negated in mirrored mode, and its bounds are those of R108, which are
reached. -/
def Obligations.StoredAnglesAreExactAndBounded : Prop :=
  (∀ (f : Fields) (i : Fin 8),
    -327680 ≤ sampleAngle f i.val ∧ sampleAngle f i.val ≤ 357873 ∧
    (packetSample false f i).angle.toInt = sampleAngle f i.val ∧
    (packetSample true f i).angle.toInt = -sampleAngle f i.val) ∧
  (∀ (f : Fields) (i : Fin 8), f.rawStart = 0 → f.rawEnd = 0 → sampleAngle f i.val = -327680) ∧
  (∀ f : Fields, f.rawStart.toNat = 65535 → f.rawEnd.toNat = 65534 → sampleAngle f 7 = 357873)

/-- R105: the same packet committed with and without mirroring gives slots whose angles are exact negations, with the
same distances, intensities, cursor, flag and registers. -/
def Obligations.MirroringNegatesEveryAngle : Prop :=
  ∀ (b : Byte) (s t u : State) (c : Config), s.phase = .body → s.bcnt = 31 → s.ring.wf = true →
    s.cfg.strict = false → c = { s.cfg with mirrored := !s.cfg.mirrored } →
    exec (.byteBody b) s = .next t → exec (.byteBody b) { s with cfg := c } = .next u →
    { u with ring := t.ring, cfg := t.cfg } = t ∧
    ∀ i : Fin 8, ∀ j, (s.wcur + i.val) % s.cfg.capacity = j →
      (u.ring.read j).angle.toInt = -(t.ring.read j).angle.toInt ∧
      (u.ring.read j).distance = (t.ring.read j).distance ∧
      (u.ring.read j).intensity = (t.ring.read j).intensity

/-- R111, R170 (a): while `PREV_START` is 0, as reset leaves it, a commit does not set the flag. -/
def Obligations.FirstCommitNeverSetsFlag : Prop :=
  ∀ (b : Byte) (s t : State), s.phase = .body → s.prevStart = 0 → exec (.byteBody b) s = .next t →
    t.rotc = s.rotc

/-- R63, R78, R100: a FRAME accepted from `HUNT` at any match position commits exactly its fields, where it is not
dropped. That FRAME is 36 byte acceptances is the model's reading (log 11). -/
def Obligations.FrameCommitsItsFields : Prop :=
  ∀ (f : Fields) (s : State), s.phase = .hunt → s.wcur < s.cfg.capacity →
    (s.cfg.strict = false ∨ Config.checksumOk (frameLine f) = true) →
    ∃ body : Vector Byte 32, body.toList = bodyBytes f ∧
      exec (.frame f) s = .next
        { latchFields f (appendSamples (packetSamples s.cfg.mirrored f) s) with
          phase := .hunt, mpos := 0, bcnt := 0, bodyreg := body }

/-- R63, R101, R102: a FRAME accepted from `HUNT` reaches the commit with its own 32 body bytes, on `CHECKSUM_OK` of its
own 36 bytes; dropped in strict mode, it leaves only its body bytes behind (log 11). -/
def Obligations.FrameReachesChecksumGate : Prop :=
  ∀ (f : Fields) (s : State), s.phase = .hunt →
    ∃ body : Vector Byte 32, body.toList = bodyBytes f ∧
      exec (.frame f) s = commitWith (Config.checksumOk (frameLine f))
        { s with phase := .body, mpos := 0, bcnt := 0, bodyreg := body } ∧
      (s.cfg.strict = true → commitWith false { s with phase := .body, mpos := 0, bcnt := 0, bodyreg := body } =
        .next { s with phase := .hunt, mpos := 0, bcnt := 0, bodyreg := body })

/-- R91, R92: a FRAME that arrives in `BODY` is body data until the captured body is full; what is left of its bytes is
searched for a marker (the model's reading of FRAME, log 11). -/
def Obligations.FrameInsideBodyIsData : Prop :=
  ∀ (f : Fields) (s : State), s.phase = .body → s.cfg.strict = false → s.wcur < s.cfg.capacity →
    ∃ t, acceptBytes ((frameLine f).take (32 - s.bcnt.val)) s = .next t ∧ t.triple = (.hunt, 0, 0) ∧
      t.wcur = (s.wcur + 8) % s.cfg.capacity ∧
      exec (.frame f) s = acceptBytes ((frameLine f).drop (32 - s.bcnt.val)) t ∧
      ∃ u, exec (.frame f) s = .next u

/-- R110 (d): `n` frames back to back from `WCUR = 0` leave `WCUR = (8*n) mod CAPACITY`, the framer searching. -/
def Obligations.FramesAdvanceCursor : Prop :=
  ∀ (fs : List Fields) (s : State), s.phase = .hunt → s.wcur = 0 → s.cfg.strict = false →
    ∃ t, acceptBytes (fs.flatMap frameLine) s = .next t ∧ t.phase = .hunt ∧
      t.wcur = (8 * fs.length) % s.cfg.capacity

/-! ### Abnormal events and reset (R140 to R148, R160 to R165) -/

/-- First clause, R141: `rx_fault` halts the framer and changes nothing else, so that in `HALTED` it changes nothing.
Second clause: what was left of a capture is never read again; a step from `HALTED` does the same whatever `MPOS`, `BCNT`
and `BODYREG` hold, and keeps them, or resets. That a reset then gives one and the same state, `BODYREG` included, is the
model's choice (log 6): R33 has reset not write `BODYREG`, and R160 and I12 leave its value open. -/
def Obligations.RxFaultHaltsFramer : Prop :=
  (∀ s : State, exec .rxFault s = .next { s with phase := .halted }) ∧
  ∀ (s : State) (m : Fin 4) (n : Fin 32) (body : Vector Byte 32), s.phase = .halted →
    match step s with
    | .next t => step { s with mpos := m, bcnt := n, bodyreg := body } =
        .next (if t.phase = .halted then { t with mpos := m, bcnt := n, bodyreg := body } else t)
    | .fault r => step { s with mpos := m, bcnt := n, bodyreg := body } = .fault r
    | .refused r => step { s with mpos := m, bcnt := n, bodyreg := body } = .refused r

/-- R142, R143: in `HALTED` the framer is not ready; everything but reset completes and leaves `HALTED`, and all the
framer owns, as it stood; START (but for its answer) and `rx_fault` change nothing; reset leaves it. That a byte operation or a
FRAME completes there is the model's choice (log 10, log 11). -/
def Obligations.HaltedUntilReset : Prop :=
  ∀ (i : Instr) (s : State), s.phase = .halted → s.inReady = false ∧
    (i ≠ .reset → ∃ t, exec i s = .next t ∧ t.phase = .halted ∧ t.framerData = s.framerData ∧
      (∀ idx, i = .start idx → { t with resp := s.resp } = s) ∧ (i = .rxFault → t = s)) ∧
    (i = .reset → ∃ t, exec i s = .next t ∧ t.phase = .idle)

/-- R142, R161: a step leaves `HALTED` only where `rst` is asserted. -/
def Obligations.OnlyResetLeavesHalted : Prop :=
  ∀ s t : State, s.phase = .halted → step s = .next t →
    t.phase = .halted ∨ (∃ rxFault ts, s.sched = .cycle 1 rxFault :: ts ∧ t.phase = .idle)

/-- R160, R161: RESET, in any state, leaves every element the spec gives a reset value at it, and runs with the
configuration inputs; of `BODYREG`, which it gives none, nothing is said. -/
def Obligations.ResetRestoresEveryElement : Prop :=
  ∀ s : State, ∃ t, exec .reset s = .next t ∧
    t.phase = .idle ∧ t.mpos = 0 ∧ t.bcnt = 0 ∧ (∀ j, t.ring.read j = ⟨0, 0, 0⟩) ∧ t.wcur = 0 ∧ t.rotc = false ∧
    t.prevStart = 0 ∧ t.rpmRaw = 0 ∧ t.cksum = 0 ∧ (∀ j, t.snap.read j = ⟨0, 0, 0⟩) ∧ t.cfg = s.cfgIn

/-- R160, R162: the state right after reset. That it runs with the default configuration of R7 is the model's choice
(log 1). -/
def Obligations.ResetStateValues : Prop :=
  State.reset.triple = (.idle, 0, 0) ∧ State.reset.inReady = false ∧
  (∀ j, State.reset.ring.read j = ⟨0, 0, 0⟩) ∧ State.reset.wcur = 0 ∧ State.reset.rotc = false ∧
  State.reset.prevStart = 0 ∧ State.reset.rpmRaw = 0 ∧ State.reset.cksum = 0 ∧
  (∀ j, State.reset.snap.read j = ⟨0, 0, 0⟩) ∧ State.reset.cfg.capacity = 480 ∧
  State.reset.cfg.mirrored = true ∧ State.reset.cfg.strict = false

/-- R165: between reset and START every read answers 0, and START makes the framer ready. -/
def Obligations.CommandsAfterReset : Prop :=
  ∀ (s t : State) (idx : SlotIdx), exec .reset s = .next t →
    t.inReady = false ∧
    (∃ u w, exec (.ready idx) t = .next u ∧ u.resp = some w ∧ respStatus w = 0 ∧ respData w = 0) ∧
    (∃ u w, exec (.rpm idx) t = .next u ∧ u.resp = some w ∧ respStatus w = 0 ∧ respData w = 0) ∧
    (∃ u, exec (.snap idx) t = .next u ∧ ∀ j, u.snap.read j = ⟨0, 0, 0⟩) ∧
    (idx.toNat < t.cfg.capacity →
      ∃ u w, exec (.rdsnap idx) t = .next u ∧ u.resp = some w ∧ respStatus w = 0 ∧ respData w = 0) ∧
    (∃ u, exec (.start idx) t = .next u ∧ u.inReady = true)

/-! ### Whole-machine rules (R25, R28, R32, R33, R35, R59, R116, R128, R149, R171) -/

/-- R35: the invariants hold right after reset. -/
def Obligations.ResetMeetsInvariant : Prop := State.reset.Inv

/-- R35: every step keeps the invariants, from every state that meets them. -/
def Obligations.StepKeepsInvariant : Prop := ∀ s t : State, s.Inv → step s = .next t → t.Inv

/-- R116, R148: where the invariants hold every operation completes, and no step faults. That `exec` answers a next state
for BYTE_HUNT outside `HUNT`, BYTE_BODY outside `BODY`, and FRAME in `IDLE` or `HALTED`, where R85 and R94 give no step, is
the model's choice (log 10, log 11). -/
def Obligations.NothingFaultsUnderInvariant : Prop :=
  ∀ s : State, s.Inv → (∀ i, ∃ t, exec i s = .next t) ∧ ∀ r, step s ≠ .fault r

/-- R28, R112, R149: only a body byte or a frame sets the flag, and only SNAP or a reset clears it. -/
def Obligations.FlagHasOneSetterAndOneClearer : Prop :=
  ∀ (i : Instr) (s t : State), exec i s = .next t →
    (s.rotc = false → t.rotc = true → (∃ b, i = .byteBody b) ∨ ∃ f, i = .frame f) ∧
    (s.rotc = true → t.rotc = false → (∃ idx, i = .snap idx) ∨ i = .reset)

/-- R32, R128: while neither SNAP nor a reset runs, the snapshot buffer stays, so RDSNAP answers the same. -/
def Obligations.SnapshotIsStableBetweenSnaps : Prop :=
  ∀ (i : Instr) (s t : State), exec i s = .next t → (∀ idx, i ≠ .snap idx) → i ≠ .reset →
    t.snap = s.snap ∧ ∀ idx, ∃ u v, exec (.rdsnap idx) s = .next u ∧ exec (.rdsnap idx) t = .next v ∧ u.resp = v.resp

/-- R26, R27, R29, R30, R31, R33: only a body byte, a frame or a reset writes what a commit writes. -/
def Obligations.OnlyCommitsWriteRingData : Prop :=
  ∀ (i : Instr) (s t : State), exec i s = .next t →
    (∀ b, i ≠ .byteBody b) → (∀ f, i ≠ .frame f) → i ≠ .reset →
    t.ring = s.ring ∧ t.wcur = s.wcur ∧ t.prevStart = s.prevStart ∧ t.rpmRaw = s.rpmRaw ∧ t.cksum = s.cksum

/-- R171: the configuration a block runs with changes only at a reset, which reads the inputs. -/
def Obligations.ConfigurationChangesOnlyAtReset : Prop :=
  ∀ (i : Instr) (s t : State), exec i s = .next t →
    t.cfg = if i = .reset then s.cfgIn else s.cfg

/-- R66, R69, R70, R98: no operation changes what the SOURCE still offers, the turns to come (log 7) or the configuration
inputs (log 2), and only a command answers on the response port (log 9). -/
def Obligations.OperationsLeaveInputsAlone : Prop :=
  ∀ (i : Instr) (s t : State), exec i s = .next t →
    t.src = s.src ∧ t.sched = s.sched ∧ t.cfgIn = s.cfgIn ∧ (i.agent ≠ .cons → t.resp = s.resp)

/-- From R59's "no stored data steers its sequencing": where the framer goes next depends on where it is and the operation,
never on the ring, the snapshot, the flag, the registers or the configuration. Which operations move it at all is
`Obligations.ControlFlowTable`. -/
def Obligations.SequencingIgnoresStoredData : Prop :=
  ∀ (i : Instr) (s t s' t' : State), s.triple = t.triple → exec i s = .next s' → exec i t = .next t' →
    s'.triple = t'.triple

/-- R25, D26, I12: what `BODYREG` holds before the current packet writes it is never observed: two states that differ
only there step alike, to states that differ only there. -/
def Obligations.StaleBodyIsNeverObserved : Prop :=
  ∀ s t : State, s.sameButStaleBody t →
    match step s with
    | .next s' => ∃ t', step t = .next t' ∧ s'.sameButStaleBody t'
    | .fault r => step t = .fault r
    | .refused r => step t = .refused r

/-- R51: READY, RPM and RDSNAP change no state, and repeating one gives the same response. -/
def Obligations.ReadCommandsRepeatTheirAnswer : Prop :=
  ∀ (i : Instr) (s : State), (∃ idx, i = .ready idx ∨ i = .rpm idx ∨ i = .rdsnap idx) →
    ∃ t, exec i s = .next t ∧ { t with resp := s.resp } = s ∧ exec i t = .next t

/-- Where an accepted byte changes the block's state, as R51 says it does: always in `BODY`, and in `HUNT` but for the two
cases of R87's table that leave `MPOS` as it was (log 20). -/
def Obligations.AcceptedByteChangesState : Prop :=
  ∀ (b : Byte) (s : State),
    (s.phase = .hunt →
      (exec (.byteHunt b) s = .next s ↔ (s.mpos = 0 ∧ b ≠ 0x55) ∨ (s.mpos = 1 ∧ b = 0x55))) ∧
    (s.phase = .body → exec (.byteBody b) s ≠ .next s)
end

