-- ==== Sys2Proof/Laws/Decode.lean ====
section
/-! SUPPORT. The bit fields of the encodings as numbers, and each packing helper against its inverse. -/

namespace Sys2Proof

theorem cmdWord_toNat (op : BitVec 3) (idx : SlotIdx) : (cmdWord op idx).toNat = 8 * idx.toNat + op.toNat := by
  unfold cmdWord
  rw [BitVec.toNat_append, ← Nat.shiftLeft_add_eq_or_of_lt (by omega), Nat.shiftLeft_eq]
  omega

@[simp] theorem cmdWord_op (op : BitVec 3) (idx : SlotIdx) : (cmdWord op idx).extractLsb' 0 3 = op := by
  apply BitVec.eq_of_toNat_eq
  rw [BitVec.extractLsb'_toNat, cmdWord_toNat, Nat.shiftRight_zero]
  have := op.isLt
  omega

@[simp] theorem cmdWord_idx (op : BitVec 3) (idx : SlotIdx) : (cmdWord op idx).extractLsb' 3 16 = idx := by
  apply BitVec.eq_of_toNat_eq
  rw [BitVec.extractLsb'_toNat, cmdWord_toNat, Nat.shiftRight_eq_div_pow]
  have := op.isLt
  have := idx.isLt
  omega

/-- A command word is its two fields. -/
theorem cmdWord_fields (w : CmdWord) : cmdWord (w.extractLsb' 0 3) (w.extractLsb' 3 16) = w := by
  apply BitVec.eq_of_toNat_eq
  rw [cmdWord_toNat, BitVec.extractLsb'_toNat, BitVec.extractLsb'_toNat, Nat.shiftRight_eq_div_pow,
    Nat.shiftRight_eq_div_pow]
  have := w.isLt
  omega

/-- A command word is on the port exactly where its index has `IDX_W` bits. -/
theorem cmdWord_lt_iff (c : Config) (op : BitVec 3) (idx : SlotIdx) :
    (cmdWord op idx).toNat < 2 ^ (c.idxW + 3) ↔ idx.toNat < 2 ^ c.idxW := by
  rw [cmdWord_toNat, Nat.pow_add]
  have := op.isLt
  omega

theorem append_toNat (a b : Byte) : (a ++ b).toNat = 256 * a.toNat + b.toNat := by
  rw [BitVec.toNat_append, ← Nat.shiftLeft_add_eq_or_of_lt (by omega), Nat.shiftLeft_eq]
  omega

theorem loByte_toNat (v : Half) : (loByte v).toNat = v.toNat % 256 := by
  rw [loByte, BitVec.extractLsb'_toNat, Nat.shiftRight_zero]

theorem hiByte_toNat (v : Half) : (hiByte v).toNat = v.toNat / 256 := by
  rw [hiByte, BitVec.extractLsb'_toNat, Nat.shiftRight_eq_div_pow]
  have := v.isLt
  omega

@[simp] theorem loByte_append (a b : Byte) : loByte (a ++ b) = b := by
  apply BitVec.eq_of_toNat_eq
  rw [loByte_toNat, append_toNat]
  have := b.isLt
  omega

@[simp] theorem hiByte_append (a b : Byte) : hiByte (a ++ b) = a := by
  apply BitVec.eq_of_toNat_eq
  rw [hiByte_toNat, append_toNat]
  have := a.isLt
  have := b.isLt
  omega

@[simp] theorem hiByte_append_loByte (v : Half) : hiByte v ++ loByte v = v := by
  apply BitVec.eq_of_toNat_eq
  rw [append_toNat, hiByte_toNat, loByte_toNat]
  omega

theorem finRange_eight : List.finRange 8 = [0, 1, 2, 3, 4, 5, 6, 7] := by decide

@[simp] theorem frameLine_length (f : Fields) : (frameLine f).length = 36 := by
  simp [frameLine, bodyBytes, Config.marker, groupBytes]

@[simp] theorem frameLine_take_marker (f : Fields) : (frameLine f).take 4 = Config.marker := by
  simp [frameLine, Config.marker]

end Sys2Proof
end

