-- ==== Sys2Proof/Laws/State.lean ====
section
/-! SUPPORT. One lemma per field per update: what each named update of the state leaves in each field. -/

namespace Sys2Proof.Machine

/-! ### `respond` -/

@[simp] theorem respond_phase (st : Status) (d : DataWord) (s : State) : (respond st d s).phase = s.phase := rfl
@[simp] theorem respond_mpos (st : Status) (d : DataWord) (s : State) : (respond st d s).mpos = s.mpos := rfl
@[simp] theorem respond_bcnt (st : Status) (d : DataWord) (s : State) : (respond st d s).bcnt = s.bcnt := rfl
@[simp] theorem respond_bodyreg (st : Status) (d : DataWord) (s : State) : (respond st d s).bodyreg = s.bodyreg := rfl
@[simp] theorem respond_ring (st : Status) (d : DataWord) (s : State) : (respond st d s).ring = s.ring := rfl
@[simp] theorem respond_wcur (st : Status) (d : DataWord) (s : State) : (respond st d s).wcur = s.wcur := rfl
@[simp] theorem respond_rotc (st : Status) (d : DataWord) (s : State) : (respond st d s).rotc = s.rotc := rfl
@[simp] theorem respond_prevStart (st : Status) (d : DataWord) (s : State) : (respond st d s).prevStart = s.prevStart := rfl
@[simp] theorem respond_rpmRaw (st : Status) (d : DataWord) (s : State) : (respond st d s).rpmRaw = s.rpmRaw := rfl
@[simp] theorem respond_cksum (st : Status) (d : DataWord) (s : State) : (respond st d s).cksum = s.cksum := rfl
@[simp] theorem respond_snap (st : Status) (d : DataWord) (s : State) : (respond st d s).snap = s.snap := rfl
@[simp] theorem respond_cfg (st : Status) (d : DataWord) (s : State) : (respond st d s).cfg = s.cfg := rfl
@[simp] theorem respond_cfgIn (st : Status) (d : DataWord) (s : State) : (respond st d s).cfgIn = s.cfgIn := rfl
@[simp] theorem respond_src (st : Status) (d : DataWord) (s : State) : (respond st d s).src = s.src := rfl
@[simp] theorem respond_sched (st : Status) (d : DataWord) (s : State) : (respond st d s).sched = s.sched := rfl
@[simp] theorem respond_resp (st : Status) (d : DataWord) (s : State) : (respond st d s).resp = some (respWord st d) := rfl
@[simp] theorem respond_freeCtr (st : Status) (d : DataWord) (s : State) : (respond st d s).freeCtr = s.freeCtr := rfl

/-! ### `resetBlock` -/

@[simp] theorem resetBlock_phase (s : State) : (resetBlock s).phase = .idle := rfl
@[simp] theorem resetBlock_mpos (s : State) : (resetBlock s).mpos = 0 := rfl
@[simp] theorem resetBlock_bcnt (s : State) : (resetBlock s).bcnt = 0 := rfl
@[simp] theorem resetBlock_bodyreg (s : State) : (resetBlock s).bodyreg = freeBody s.freeCtr := rfl
@[simp] theorem resetBlock_ring (s : State) : (resetBlock s).ring = [] := rfl
@[simp] theorem resetBlock_wcur (s : State) : (resetBlock s).wcur = 0 := rfl
@[simp] theorem resetBlock_rotc (s : State) : (resetBlock s).rotc = false := rfl
@[simp] theorem resetBlock_prevStart (s : State) : (resetBlock s).prevStart = 0 := rfl
@[simp] theorem resetBlock_rpmRaw (s : State) : (resetBlock s).rpmRaw = 0 := rfl
@[simp] theorem resetBlock_cksum (s : State) : (resetBlock s).cksum = 0 := rfl
@[simp] theorem resetBlock_snap (s : State) : (resetBlock s).snap = [] := rfl
@[simp] theorem resetBlock_cfg (s : State) : (resetBlock s).cfg = s.cfgIn := rfl
@[simp] theorem resetBlock_cfgIn (s : State) : (resetBlock s).cfgIn = s.cfgIn := rfl
@[simp] theorem resetBlock_src (s : State) : (resetBlock s).src = s.src := rfl
@[simp] theorem resetBlock_sched (s : State) : (resetBlock s).sched = s.sched := rfl
@[simp] theorem resetBlock_resp (s : State) : (resetBlock s).resp = s.resp := rfl
@[simp] theorem resetBlock_freeCtr (s : State) : (resetBlock s).freeCtr = s.freeCtr + 1 := rfl

/-! ### `appendSample` -/

@[simp] theorem appendSample_phase (x : Sample) (s : State) : (appendSample x s).phase = s.phase := rfl
@[simp] theorem appendSample_mpos (x : Sample) (s : State) : (appendSample x s).mpos = s.mpos := rfl
@[simp] theorem appendSample_bcnt (x : Sample) (s : State) : (appendSample x s).bcnt = s.bcnt := rfl
@[simp] theorem appendSample_bodyreg (x : Sample) (s : State) : (appendSample x s).bodyreg = s.bodyreg := rfl
@[simp] theorem appendSample_ring (x : Sample) (s : State) : (appendSample x s).ring = s.ring.write s.wcur x := rfl
@[simp] theorem appendSample_wcur (x : Sample) (s : State) : (appendSample x s).wcur = (s.wcur + 1) % s.cfg.capacity := rfl
@[simp] theorem appendSample_rotc (x : Sample) (s : State) : (appendSample x s).rotc = s.rotc := rfl
@[simp] theorem appendSample_prevStart (x : Sample) (s : State) : (appendSample x s).prevStart = s.prevStart := rfl
@[simp] theorem appendSample_rpmRaw (x : Sample) (s : State) : (appendSample x s).rpmRaw = s.rpmRaw := rfl
@[simp] theorem appendSample_cksum (x : Sample) (s : State) : (appendSample x s).cksum = s.cksum := rfl
@[simp] theorem appendSample_snap (x : Sample) (s : State) : (appendSample x s).snap = s.snap := rfl
@[simp] theorem appendSample_cfg (x : Sample) (s : State) : (appendSample x s).cfg = s.cfg := rfl
@[simp] theorem appendSample_cfgIn (x : Sample) (s : State) : (appendSample x s).cfgIn = s.cfgIn := rfl
@[simp] theorem appendSample_src (x : Sample) (s : State) : (appendSample x s).src = s.src := rfl
@[simp] theorem appendSample_sched (x : Sample) (s : State) : (appendSample x s).sched = s.sched := rfl
@[simp] theorem appendSample_resp (x : Sample) (s : State) : (appendSample x s).resp = s.resp := rfl
@[simp] theorem appendSample_freeCtr (x : Sample) (s : State) : (appendSample x s).freeCtr = s.freeCtr := rfl

/-! ### `latchFields` -/

@[simp] theorem latchFields_phase (f : Fields) (s : State) : (latchFields f s).phase = s.phase := rfl
@[simp] theorem latchFields_mpos (f : Fields) (s : State) : (latchFields f s).mpos = s.mpos := rfl
@[simp] theorem latchFields_bcnt (f : Fields) (s : State) : (latchFields f s).bcnt = s.bcnt := rfl
@[simp] theorem latchFields_bodyreg (f : Fields) (s : State) : (latchFields f s).bodyreg = s.bodyreg := rfl
@[simp] theorem latchFields_ring (f : Fields) (s : State) : (latchFields f s).ring = s.ring := rfl
@[simp] theorem latchFields_wcur (f : Fields) (s : State) : (latchFields f s).wcur = s.wcur := rfl
@[simp] theorem latchFields_rotc (f : Fields) (s : State) : (latchFields f s).rotc = rotcAfterCommit s.rotc f.rawStart s.prevStart := rfl
@[simp] theorem latchFields_prevStart (f : Fields) (s : State) : (latchFields f s).prevStart = f.rawStart := rfl
@[simp] theorem latchFields_rpmRaw (f : Fields) (s : State) : (latchFields f s).rpmRaw = f.rawSpeed := rfl
@[simp] theorem latchFields_cksum (f : Fields) (s : State) : (latchFields f s).cksum = f.cks := rfl
@[simp] theorem latchFields_snap (f : Fields) (s : State) : (latchFields f s).snap = s.snap := rfl
@[simp] theorem latchFields_cfg (f : Fields) (s : State) : (latchFields f s).cfg = s.cfg := rfl
@[simp] theorem latchFields_cfgIn (f : Fields) (s : State) : (latchFields f s).cfgIn = s.cfgIn := rfl
@[simp] theorem latchFields_src (f : Fields) (s : State) : (latchFields f s).src = s.src := rfl
@[simp] theorem latchFields_sched (f : Fields) (s : State) : (latchFields f s).sched = s.sched := rfl
@[simp] theorem latchFields_resp (f : Fields) (s : State) : (latchFields f s).resp = s.resp := rfl
@[simp] theorem latchFields_freeCtr (f : Fields) (s : State) : (latchFields f s).freeCtr = s.freeCtr := rfl

/-! ### `returnToHunt` -/

@[simp] theorem returnToHunt_phase (s : State) : (returnToHunt s).phase = .hunt := rfl
@[simp] theorem returnToHunt_mpos (s : State) : (returnToHunt s).mpos = 0 := rfl
@[simp] theorem returnToHunt_bcnt (s : State) : (returnToHunt s).bcnt = s.bcnt := rfl
@[simp] theorem returnToHunt_bodyreg (s : State) : (returnToHunt s).bodyreg = s.bodyreg := rfl
@[simp] theorem returnToHunt_ring (s : State) : (returnToHunt s).ring = s.ring := rfl
@[simp] theorem returnToHunt_wcur (s : State) : (returnToHunt s).wcur = s.wcur := rfl
@[simp] theorem returnToHunt_rotc (s : State) : (returnToHunt s).rotc = s.rotc := rfl
@[simp] theorem returnToHunt_prevStart (s : State) : (returnToHunt s).prevStart = s.prevStart := rfl
@[simp] theorem returnToHunt_rpmRaw (s : State) : (returnToHunt s).rpmRaw = s.rpmRaw := rfl
@[simp] theorem returnToHunt_cksum (s : State) : (returnToHunt s).cksum = s.cksum := rfl
@[simp] theorem returnToHunt_snap (s : State) : (returnToHunt s).snap = s.snap := rfl
@[simp] theorem returnToHunt_cfg (s : State) : (returnToHunt s).cfg = s.cfg := rfl
@[simp] theorem returnToHunt_cfgIn (s : State) : (returnToHunt s).cfgIn = s.cfgIn := rfl
@[simp] theorem returnToHunt_src (s : State) : (returnToHunt s).src = s.src := rfl
@[simp] theorem returnToHunt_sched (s : State) : (returnToHunt s).sched = s.sched := rfl
@[simp] theorem returnToHunt_resp (s : State) : (returnToHunt s).resp = s.resp := rfl
@[simp] theorem returnToHunt_freeCtr (s : State) : (returnToHunt s).freeCtr = s.freeCtr := rfl

/-! ### `enterBody` -/

@[simp] theorem enterBody_phase (s : State) : (enterBody s).phase = .body := rfl
@[simp] theorem enterBody_mpos (s : State) : (enterBody s).mpos = 0 := rfl
@[simp] theorem enterBody_bcnt (s : State) : (enterBody s).bcnt = 0 := rfl
@[simp] theorem enterBody_bodyreg (s : State) : (enterBody s).bodyreg = s.bodyreg := rfl
@[simp] theorem enterBody_ring (s : State) : (enterBody s).ring = s.ring := rfl
@[simp] theorem enterBody_wcur (s : State) : (enterBody s).wcur = s.wcur := rfl
@[simp] theorem enterBody_rotc (s : State) : (enterBody s).rotc = s.rotc := rfl
@[simp] theorem enterBody_prevStart (s : State) : (enterBody s).prevStart = s.prevStart := rfl
@[simp] theorem enterBody_rpmRaw (s : State) : (enterBody s).rpmRaw = s.rpmRaw := rfl
@[simp] theorem enterBody_cksum (s : State) : (enterBody s).cksum = s.cksum := rfl
@[simp] theorem enterBody_snap (s : State) : (enterBody s).snap = s.snap := rfl
@[simp] theorem enterBody_cfg (s : State) : (enterBody s).cfg = s.cfg := rfl
@[simp] theorem enterBody_cfgIn (s : State) : (enterBody s).cfgIn = s.cfgIn := rfl
@[simp] theorem enterBody_src (s : State) : (enterBody s).src = s.src := rfl
@[simp] theorem enterBody_sched (s : State) : (enterBody s).sched = s.sched := rfl
@[simp] theorem enterBody_resp (s : State) : (enterBody s).resp = s.resp := rfl
@[simp] theorem enterBody_freeCtr (s : State) : (enterBody s).freeCtr = s.freeCtr := rfl

/-! ### `setMatch` -/

@[simp] theorem setMatch_phase (m : Nat) (s : State) : (setMatch m s).phase = s.phase := rfl
@[simp] theorem setMatch_mpos (m : Nat) (s : State) : (setMatch m s).mpos = Fin.ofNat 4 m := rfl
@[simp] theorem setMatch_bcnt (m : Nat) (s : State) : (setMatch m s).bcnt = s.bcnt := rfl
@[simp] theorem setMatch_bodyreg (m : Nat) (s : State) : (setMatch m s).bodyreg = s.bodyreg := rfl
@[simp] theorem setMatch_ring (m : Nat) (s : State) : (setMatch m s).ring = s.ring := rfl
@[simp] theorem setMatch_wcur (m : Nat) (s : State) : (setMatch m s).wcur = s.wcur := rfl
@[simp] theorem setMatch_rotc (m : Nat) (s : State) : (setMatch m s).rotc = s.rotc := rfl
@[simp] theorem setMatch_prevStart (m : Nat) (s : State) : (setMatch m s).prevStart = s.prevStart := rfl
@[simp] theorem setMatch_rpmRaw (m : Nat) (s : State) : (setMatch m s).rpmRaw = s.rpmRaw := rfl
@[simp] theorem setMatch_cksum (m : Nat) (s : State) : (setMatch m s).cksum = s.cksum := rfl
@[simp] theorem setMatch_snap (m : Nat) (s : State) : (setMatch m s).snap = s.snap := rfl
@[simp] theorem setMatch_cfg (m : Nat) (s : State) : (setMatch m s).cfg = s.cfg := rfl
@[simp] theorem setMatch_cfgIn (m : Nat) (s : State) : (setMatch m s).cfgIn = s.cfgIn := rfl
@[simp] theorem setMatch_src (m : Nat) (s : State) : (setMatch m s).src = s.src := rfl
@[simp] theorem setMatch_sched (m : Nat) (s : State) : (setMatch m s).sched = s.sched := rfl
@[simp] theorem setMatch_resp (m : Nat) (s : State) : (setMatch m s).resp = s.resp := rfl
@[simp] theorem setMatch_freeCtr (m : Nat) (s : State) : (setMatch m s).freeCtr = s.freeCtr := rfl

/-! ### `storeBodyByte` -/

@[simp] theorem storeBodyByte_phase (b : Byte) (s : State) : (storeBodyByte b s).phase = s.phase := rfl
@[simp] theorem storeBodyByte_mpos (b : Byte) (s : State) : (storeBodyByte b s).mpos = s.mpos := rfl
@[simp] theorem storeBodyByte_bcnt (b : Byte) (s : State) : (storeBodyByte b s).bcnt = s.bcnt := rfl
@[simp] theorem storeBodyByte_bodyreg (b : Byte) (s : State) : (storeBodyByte b s).bodyreg = s.bodyreg.set s.bcnt b := rfl
@[simp] theorem storeBodyByte_ring (b : Byte) (s : State) : (storeBodyByte b s).ring = s.ring := rfl
@[simp] theorem storeBodyByte_wcur (b : Byte) (s : State) : (storeBodyByte b s).wcur = s.wcur := rfl
@[simp] theorem storeBodyByte_rotc (b : Byte) (s : State) : (storeBodyByte b s).rotc = s.rotc := rfl
@[simp] theorem storeBodyByte_prevStart (b : Byte) (s : State) : (storeBodyByte b s).prevStart = s.prevStart := rfl
@[simp] theorem storeBodyByte_rpmRaw (b : Byte) (s : State) : (storeBodyByte b s).rpmRaw = s.rpmRaw := rfl
@[simp] theorem storeBodyByte_cksum (b : Byte) (s : State) : (storeBodyByte b s).cksum = s.cksum := rfl
@[simp] theorem storeBodyByte_snap (b : Byte) (s : State) : (storeBodyByte b s).snap = s.snap := rfl
@[simp] theorem storeBodyByte_cfg (b : Byte) (s : State) : (storeBodyByte b s).cfg = s.cfg := rfl
@[simp] theorem storeBodyByte_cfgIn (b : Byte) (s : State) : (storeBodyByte b s).cfgIn = s.cfgIn := rfl
@[simp] theorem storeBodyByte_src (b : Byte) (s : State) : (storeBodyByte b s).src = s.src := rfl
@[simp] theorem storeBodyByte_sched (b : Byte) (s : State) : (storeBodyByte b s).sched = s.sched := rfl
@[simp] theorem storeBodyByte_resp (b : Byte) (s : State) : (storeBodyByte b s).resp = s.resp := rfl
@[simp] theorem storeBodyByte_freeCtr (b : Byte) (s : State) : (storeBodyByte b s).freeCtr = s.freeCtr := rfl

/-! ### `setBcnt` -/

@[simp] theorem setBcnt_phase (n : Fin 32) (s : State) : (setBcnt n s).phase = s.phase := rfl
@[simp] theorem setBcnt_mpos (n : Fin 32) (s : State) : (setBcnt n s).mpos = s.mpos := rfl
@[simp] theorem setBcnt_bcnt (n : Fin 32) (s : State) : (setBcnt n s).bcnt = n := rfl
@[simp] theorem setBcnt_bodyreg (n : Fin 32) (s : State) : (setBcnt n s).bodyreg = s.bodyreg := rfl
@[simp] theorem setBcnt_ring (n : Fin 32) (s : State) : (setBcnt n s).ring = s.ring := rfl
@[simp] theorem setBcnt_wcur (n : Fin 32) (s : State) : (setBcnt n s).wcur = s.wcur := rfl
@[simp] theorem setBcnt_rotc (n : Fin 32) (s : State) : (setBcnt n s).rotc = s.rotc := rfl
@[simp] theorem setBcnt_prevStart (n : Fin 32) (s : State) : (setBcnt n s).prevStart = s.prevStart := rfl
@[simp] theorem setBcnt_rpmRaw (n : Fin 32) (s : State) : (setBcnt n s).rpmRaw = s.rpmRaw := rfl
@[simp] theorem setBcnt_cksum (n : Fin 32) (s : State) : (setBcnt n s).cksum = s.cksum := rfl
@[simp] theorem setBcnt_snap (n : Fin 32) (s : State) : (setBcnt n s).snap = s.snap := rfl
@[simp] theorem setBcnt_cfg (n : Fin 32) (s : State) : (setBcnt n s).cfg = s.cfg := rfl
@[simp] theorem setBcnt_cfgIn (n : Fin 32) (s : State) : (setBcnt n s).cfgIn = s.cfgIn := rfl
@[simp] theorem setBcnt_src (n : Fin 32) (s : State) : (setBcnt n s).src = s.src := rfl
@[simp] theorem setBcnt_sched (n : Fin 32) (s : State) : (setBcnt n s).sched = s.sched := rfl
@[simp] theorem setBcnt_resp (n : Fin 32) (s : State) : (setBcnt n s).resp = s.resp := rfl
@[simp] theorem setBcnt_freeCtr (n : Fin 32) (s : State) : (setBcnt n s).freeCtr = s.freeCtr := rfl

/-! ### `takeSnapshot` -/

@[simp] theorem takeSnapshot_phase (s : State) : (takeSnapshot s).phase = s.phase := rfl
@[simp] theorem takeSnapshot_mpos (s : State) : (takeSnapshot s).mpos = s.mpos := rfl
@[simp] theorem takeSnapshot_bcnt (s : State) : (takeSnapshot s).bcnt = s.bcnt := rfl
@[simp] theorem takeSnapshot_bodyreg (s : State) : (takeSnapshot s).bodyreg = s.bodyreg := rfl
@[simp] theorem takeSnapshot_ring (s : State) : (takeSnapshot s).ring = s.ring := rfl
@[simp] theorem takeSnapshot_wcur (s : State) : (takeSnapshot s).wcur = s.wcur := rfl
@[simp] theorem takeSnapshot_rotc (s : State) : (takeSnapshot s).rotc = false := rfl
@[simp] theorem takeSnapshot_prevStart (s : State) : (takeSnapshot s).prevStart = s.prevStart := rfl
@[simp] theorem takeSnapshot_rpmRaw (s : State) : (takeSnapshot s).rpmRaw = s.rpmRaw := rfl
@[simp] theorem takeSnapshot_cksum (s : State) : (takeSnapshot s).cksum = s.cksum := rfl
@[simp] theorem takeSnapshot_snap (s : State) : (takeSnapshot s).snap = s.ring.copyBelow s.cfg.capacity := rfl
@[simp] theorem takeSnapshot_cfg (s : State) : (takeSnapshot s).cfg = s.cfg := rfl
@[simp] theorem takeSnapshot_cfgIn (s : State) : (takeSnapshot s).cfgIn = s.cfgIn := rfl
@[simp] theorem takeSnapshot_src (s : State) : (takeSnapshot s).src = s.src := rfl
@[simp] theorem takeSnapshot_sched (s : State) : (takeSnapshot s).sched = s.sched := rfl
@[simp] theorem takeSnapshot_resp (s : State) : (takeSnapshot s).resp = s.resp := rfl
@[simp] theorem takeSnapshot_freeCtr (s : State) : (takeSnapshot s).freeCtr = s.freeCtr := rfl

/-! ### `beginStep` -/

@[simp] theorem beginStep_phase (ts : List Turn) (s : State) : (beginStep ts s).phase = s.phase := rfl
@[simp] theorem beginStep_mpos (ts : List Turn) (s : State) : (beginStep ts s).mpos = s.mpos := rfl
@[simp] theorem beginStep_bcnt (ts : List Turn) (s : State) : (beginStep ts s).bcnt = s.bcnt := rfl
@[simp] theorem beginStep_bodyreg (ts : List Turn) (s : State) : (beginStep ts s).bodyreg = s.bodyreg := rfl
@[simp] theorem beginStep_ring (ts : List Turn) (s : State) : (beginStep ts s).ring = s.ring := rfl
@[simp] theorem beginStep_wcur (ts : List Turn) (s : State) : (beginStep ts s).wcur = s.wcur := rfl
@[simp] theorem beginStep_rotc (ts : List Turn) (s : State) : (beginStep ts s).rotc = s.rotc := rfl
@[simp] theorem beginStep_prevStart (ts : List Turn) (s : State) : (beginStep ts s).prevStart = s.prevStart := rfl
@[simp] theorem beginStep_rpmRaw (ts : List Turn) (s : State) : (beginStep ts s).rpmRaw = s.rpmRaw := rfl
@[simp] theorem beginStep_cksum (ts : List Turn) (s : State) : (beginStep ts s).cksum = s.cksum := rfl
@[simp] theorem beginStep_snap (ts : List Turn) (s : State) : (beginStep ts s).snap = s.snap := rfl
@[simp] theorem beginStep_cfg (ts : List Turn) (s : State) : (beginStep ts s).cfg = s.cfg := rfl
@[simp] theorem beginStep_cfgIn (ts : List Turn) (s : State) : (beginStep ts s).cfgIn = s.cfgIn := rfl
@[simp] theorem beginStep_src (ts : List Turn) (s : State) : (beginStep ts s).src = s.src := rfl
@[simp] theorem beginStep_sched (ts : List Turn) (s : State) : (beginStep ts s).sched = ts := rfl
@[simp] theorem beginStep_resp (ts : List Turn) (s : State) : (beginStep ts s).resp = none := rfl
@[simp] theorem beginStep_freeCtr (ts : List Turn) (s : State) : (beginStep ts s).freeCtr = s.freeCtr := rfl

/-! ### `takeException` (R140), `startFramer` (R125), `huntByte` (R86) -/

@[simp] theorem takeException_syncLoss (s : State) : takeException .syncLoss s = s := rfl
@[simp] theorem takeException_checksumMismatch (s : State) : takeException .checksumMismatch s = s := rfl
@[simp] theorem takeException_reservedCommand (s : State) :
    takeException .reservedCommand s = respond .errOp 0 s := rfl
@[simp] theorem takeException_indexOutOfRange (s : State) :
    takeException .indexOutOfRange s = respond .errIndex 0 s := rfl
@[simp] theorem reservedCommand_eq (s : State) : reservedCommand s = respond .errOp 0 s := rfl
@[simp] theorem takeException_serialFailure_phase (s : State) :
    (takeException .serialFailure s).phase = .halted := rfl
@[simp] theorem takeException_mpos (c : Cause) (s : State) : (takeException c s).mpos = s.mpos := by
  cases c <;> rfl
@[simp] theorem takeException_bcnt (c : Cause) (s : State) : (takeException c s).bcnt = s.bcnt := by
  cases c <;> rfl
@[simp] theorem takeException_bodyreg (c : Cause) (s : State) : (takeException c s).bodyreg = s.bodyreg := by
  cases c <;> rfl
@[simp] theorem takeException_ring (c : Cause) (s : State) : (takeException c s).ring = s.ring := by
  cases c <;> rfl
@[simp] theorem takeException_wcur (c : Cause) (s : State) : (takeException c s).wcur = s.wcur := by
  cases c <;> rfl
@[simp] theorem takeException_rotc (c : Cause) (s : State) : (takeException c s).rotc = s.rotc := by
  cases c <;> rfl
@[simp] theorem takeException_prevStart (c : Cause) (s : State) : (takeException c s).prevStart = s.prevStart := by
  cases c <;> rfl
@[simp] theorem takeException_rpmRaw (c : Cause) (s : State) : (takeException c s).rpmRaw = s.rpmRaw := by
  cases c <;> rfl
@[simp] theorem takeException_cksum (c : Cause) (s : State) : (takeException c s).cksum = s.cksum := by
  cases c <;> rfl
@[simp] theorem takeException_snap (c : Cause) (s : State) : (takeException c s).snap = s.snap := by
  cases c <;> rfl
@[simp] theorem takeException_cfg (c : Cause) (s : State) : (takeException c s).cfg = s.cfg := by
  cases c <;> rfl
@[simp] theorem takeException_cfgIn (c : Cause) (s : State) : (takeException c s).cfgIn = s.cfgIn := by
  cases c <;> rfl
@[simp] theorem takeException_src (c : Cause) (s : State) : (takeException c s).src = s.src := by
  cases c <;> rfl
@[simp] theorem takeException_sched (c : Cause) (s : State) : (takeException c s).sched = s.sched := by
  cases c <;> rfl
@[simp] theorem takeException_freeCtr (c : Cause) (s : State) : (takeException c s).freeCtr = s.freeCtr := by
  cases c <;> rfl

@[simp] theorem startFramer_phase (s : State) :
    (startFramer s).phase = if s.phase = .idle then .hunt else s.phase := by
  unfold startFramer; split <;> rfl
@[simp] theorem startFramer_mpos (s : State) : (startFramer s).mpos = s.mpos := by
  unfold startFramer; split <;> rfl
@[simp] theorem startFramer_bcnt (s : State) : (startFramer s).bcnt = s.bcnt := by
  unfold startFramer; split <;> rfl
@[simp] theorem startFramer_bodyreg (s : State) : (startFramer s).bodyreg = s.bodyreg := by
  unfold startFramer; split <;> rfl
@[simp] theorem startFramer_ring (s : State) : (startFramer s).ring = s.ring := by
  unfold startFramer; split <;> rfl
@[simp] theorem startFramer_wcur (s : State) : (startFramer s).wcur = s.wcur := by
  unfold startFramer; split <;> rfl
@[simp] theorem startFramer_rotc (s : State) : (startFramer s).rotc = s.rotc := by
  unfold startFramer; split <;> rfl
@[simp] theorem startFramer_prevStart (s : State) : (startFramer s).prevStart = s.prevStart := by
  unfold startFramer; split <;> rfl
@[simp] theorem startFramer_rpmRaw (s : State) : (startFramer s).rpmRaw = s.rpmRaw := by
  unfold startFramer; split <;> rfl
@[simp] theorem startFramer_cksum (s : State) : (startFramer s).cksum = s.cksum := by
  unfold startFramer; split <;> rfl
@[simp] theorem startFramer_snap (s : State) : (startFramer s).snap = s.snap := by
  unfold startFramer; split <;> rfl
@[simp] theorem startFramer_cfg (s : State) : (startFramer s).cfg = s.cfg := by
  unfold startFramer; split <;> rfl
@[simp] theorem startFramer_cfgIn (s : State) : (startFramer s).cfgIn = s.cfgIn := by
  unfold startFramer; split <;> rfl
@[simp] theorem startFramer_src (s : State) : (startFramer s).src = s.src := by
  unfold startFramer; split <;> rfl
@[simp] theorem startFramer_sched (s : State) : (startFramer s).sched = s.sched := by
  unfold startFramer; split <;> rfl
@[simp] theorem startFramer_resp (s : State) : (startFramer s).resp = s.resp := by
  unfold startFramer; split <;> rfl
@[simp] theorem startFramer_freeCtr (s : State) : (startFramer s).freeCtr = s.freeCtr := by
  unfold startFramer; split <;> rfl

@[simp] theorem huntByte_bodyreg (b : Byte) (s : State) : (huntByte b s).bodyreg = s.bodyreg := by
  unfold huntByte; split <;> [skip; split] <;> rfl
@[simp] theorem huntByte_ring (b : Byte) (s : State) : (huntByte b s).ring = s.ring := by
  unfold huntByte; split <;> [skip; split] <;> rfl
@[simp] theorem huntByte_wcur (b : Byte) (s : State) : (huntByte b s).wcur = s.wcur := by
  unfold huntByte; split <;> [skip; split] <;> rfl
@[simp] theorem huntByte_rotc (b : Byte) (s : State) : (huntByte b s).rotc = s.rotc := by
  unfold huntByte; split <;> [skip; split] <;> rfl
@[simp] theorem huntByte_prevStart (b : Byte) (s : State) : (huntByte b s).prevStart = s.prevStart := by
  unfold huntByte; split <;> [skip; split] <;> rfl
@[simp] theorem huntByte_rpmRaw (b : Byte) (s : State) : (huntByte b s).rpmRaw = s.rpmRaw := by
  unfold huntByte; split <;> [skip; split] <;> rfl
@[simp] theorem huntByte_cksum (b : Byte) (s : State) : (huntByte b s).cksum = s.cksum := by
  unfold huntByte; split <;> [skip; split] <;> rfl
@[simp] theorem huntByte_snap (b : Byte) (s : State) : (huntByte b s).snap = s.snap := by
  unfold huntByte; split <;> [skip; split] <;> rfl
@[simp] theorem huntByte_cfg (b : Byte) (s : State) : (huntByte b s).cfg = s.cfg := by
  unfold huntByte; split <;> [skip; split] <;> rfl
@[simp] theorem huntByte_cfgIn (b : Byte) (s : State) : (huntByte b s).cfgIn = s.cfgIn := by
  unfold huntByte; split <;> [skip; split] <;> rfl
@[simp] theorem huntByte_src (b : Byte) (s : State) : (huntByte b s).src = s.src := by
  unfold huntByte; split <;> [skip; split] <;> rfl
@[simp] theorem huntByte_sched (b : Byte) (s : State) : (huntByte b s).sched = s.sched := by
  unfold huntByte; split <;> [skip; split] <;> rfl
@[simp] theorem huntByte_resp (b : Byte) (s : State) : (huntByte b s).resp = s.resp := by
  unfold huntByte; split <;> [skip; split] <;> rfl
@[simp] theorem huntByte_freeCtr (b : Byte) (s : State) : (huntByte b s).freeCtr = s.freeCtr := by
  unfold huntByte; split <;> [skip; split] <;> rfl

/-! ### `appendSamples` (R109) -/

@[simp] theorem appendSamples_nil (s : State) : appendSamples [] s = s := rfl
@[simp] theorem appendSamples_cons (x : Sample) (xs : List Sample) (s : State) :
    appendSamples (x :: xs) s = appendSamples xs (appendSample x s) := rfl
@[simp] theorem appendSamples_phase (xs : List Sample) (s : State) : (appendSamples xs s).phase = s.phase := by
  induction xs generalizing s with
  | nil => rfl
  | cons x xs ih => simp [ih]
@[simp] theorem appendSamples_mpos (xs : List Sample) (s : State) : (appendSamples xs s).mpos = s.mpos := by
  induction xs generalizing s with
  | nil => rfl
  | cons x xs ih => simp [ih]
@[simp] theorem appendSamples_bcnt (xs : List Sample) (s : State) : (appendSamples xs s).bcnt = s.bcnt := by
  induction xs generalizing s with
  | nil => rfl
  | cons x xs ih => simp [ih]
@[simp] theorem appendSamples_bodyreg (xs : List Sample) (s : State) : (appendSamples xs s).bodyreg = s.bodyreg := by
  induction xs generalizing s with
  | nil => rfl
  | cons x xs ih => simp [ih]
@[simp] theorem appendSamples_rotc (xs : List Sample) (s : State) : (appendSamples xs s).rotc = s.rotc := by
  induction xs generalizing s with
  | nil => rfl
  | cons x xs ih => simp [ih]
@[simp] theorem appendSamples_prevStart (xs : List Sample) (s : State) : (appendSamples xs s).prevStart = s.prevStart := by
  induction xs generalizing s with
  | nil => rfl
  | cons x xs ih => simp [ih]
@[simp] theorem appendSamples_rpmRaw (xs : List Sample) (s : State) : (appendSamples xs s).rpmRaw = s.rpmRaw := by
  induction xs generalizing s with
  | nil => rfl
  | cons x xs ih => simp [ih]
@[simp] theorem appendSamples_cksum (xs : List Sample) (s : State) : (appendSamples xs s).cksum = s.cksum := by
  induction xs generalizing s with
  | nil => rfl
  | cons x xs ih => simp [ih]
@[simp] theorem appendSamples_snap (xs : List Sample) (s : State) : (appendSamples xs s).snap = s.snap := by
  induction xs generalizing s with
  | nil => rfl
  | cons x xs ih => simp [ih]
@[simp] theorem appendSamples_cfg (xs : List Sample) (s : State) : (appendSamples xs s).cfg = s.cfg := by
  induction xs generalizing s with
  | nil => rfl
  | cons x xs ih => simp [ih]
@[simp] theorem appendSamples_cfgIn (xs : List Sample) (s : State) : (appendSamples xs s).cfgIn = s.cfgIn := by
  induction xs generalizing s with
  | nil => rfl
  | cons x xs ih => simp [ih]
@[simp] theorem appendSamples_src (xs : List Sample) (s : State) : (appendSamples xs s).src = s.src := by
  induction xs generalizing s with
  | nil => rfl
  | cons x xs ih => simp [ih]
@[simp] theorem appendSamples_sched (xs : List Sample) (s : State) : (appendSamples xs s).sched = s.sched := by
  induction xs generalizing s with
  | nil => rfl
  | cons x xs ih => simp [ih]
@[simp] theorem appendSamples_resp (xs : List Sample) (s : State) : (appendSamples xs s).resp = s.resp := by
  induction xs generalizing s with
  | nil => rfl
  | cons x xs ih => simp [ih]
@[simp] theorem appendSamples_freeCtr (xs : List Sample) (s : State) : (appendSamples xs s).freeCtr = s.freeCtr := by
  induction xs generalizing s with
  | nil => rfl
  | cons x xs ih => simp [ih]

end Sys2Proof.Machine
end

