-- ==== Sys2Proof/Laws/Memory.lean ====
section
/-! SUPPORT. The sample stores: read after write, and every operation keeps the canonical form, the slot bound and the
angle bound. -/

namespace Sys2Proof.Machine

/-- No listed slot is `i` or below: what a strictly rising tail satisfies past its head. -/
abbrev Memory.above (i : Nat) (m : Memory) : Prop := ∀ e ∈ m, i < e.1

@[simp] theorem Memory.read_nil (i : Nat) : Memory.read [] i = Memory.unlisted := rfl

@[simp] theorem Memory.wf_nil : Memory.wf [] = true := rfl

theorem reset_stores_wf : State.reset.ring.wf = true ∧ State.reset.snap.wf = true := ⟨rfl, rfl⟩

theorem Memory.wf_cons (j : Nat) (y : Sample) (m : Memory) :
    Memory.wf ((j, y) :: m) = true ↔ m.above j ∧ y ≠ Memory.unlisted ∧ m.wf = true := by
  simp only [Memory.wf, List.pairwise_cons, List.all_cons, Bool.and_eq_true, decide_eq_true_eq, Memory.above]
  tauto

theorem Memory.mem_entry {e : Nat × Sample} {i : Nat} {x : Sample} (h : e ∈ Memory.entry i x) :
    e = (i, x) ∧ x ≠ Memory.unlisted := by
  unfold Memory.entry at h
  split at h
  · simp at h
  · exact ⟨by simpa using h, ‹_›⟩

/-- A listed entry after a write was listed before it, or is the written one. -/
theorem Memory.mem_write {e : Nat × Sample} {m : Memory} {i : Nat} {x : Sample} (h : e ∈ m.write i x) :
    e ∈ m ∨ e = (i, x) := by
  induction m with
  | nil => exact .inr (Memory.mem_entry h).1
  | cons a m ih =>
    obtain ⟨j, y⟩ := a
    simp only [Memory.write] at h
    split at h
    · rcases List.mem_cons.1 h with h | h
      · exact .inl (h ▸ List.mem_cons_self)
      · exact (ih h).imp_left (List.mem_cons_of_mem _)
    · split at h
      · rcases List.mem_append.1 h with h | h
        · exact .inr (Memory.mem_entry h).1
        · exact .inl (List.mem_cons_of_mem _ h)
      · rcases List.mem_append.1 h with h | h
        · exact .inr (Memory.mem_entry h).1
        · exact .inl h

theorem Memory.read_above {m : Memory} {i : Nat} (h : m.above i) : m.read i = Memory.unlisted := by
  induction m with
  | nil => rfl
  | cons a m ih =>
    obtain ⟨j, y⟩ := a
    have hj : i < j := h (j, y) List.mem_cons_self
    simp only [Memory.read, if_neg (Nat.ne_of_gt hj)]
    exact ih fun e he => h e (List.mem_cons_of_mem _ he)

theorem Memory.read_entry_append (i k : Nat) (x : Sample) (m : Memory) :
    Memory.read (Memory.entry i x ++ m) k =
      if i = k then (if x = Memory.unlisted then m.read k else x) else m.read k := by
  unfold Memory.entry
  split <;> simp [Memory.read]

/-- A read after a write gives the sample written. -/
theorem Memory.read_write_same {m : Memory} (h : m.wf = true) (i : Nat) (x : Sample) : (m.write i x).read i = x := by
  induction m with
  | nil =>
    have := Memory.read_entry_append i i x []
    rw [List.append_nil, if_pos rfl] at this
    rw [Memory.write, this]
    split
    · exact (‹x = Memory.unlisted›).symm
    · rfl
  | cons a m ih =>
    obtain ⟨j, y⟩ := a
    obtain ⟨hab, -, hm⟩ := (Memory.wf_cons j y m).1 h
    simp only [Memory.write]
    split
    · rename_i hlt
      rw [Memory.read, if_neg (Nat.ne_of_lt hlt), ih hm]
    · split
      · rename_i hji
        rw [Memory.read_entry_append, if_pos rfl]
        split
        · rename_i hx
          rw [Memory.read_above (hji ▸ hab), hx]
        · rfl
      · rename_i hlt hne
        rw [Memory.read_entry_append, if_pos rfl]
        split
        · rename_i hx
          rw [hx]
          refine Memory.read_above fun e he => ?_
          rcases List.mem_cons.1 he with he | he
          · subst he; omega
          · have := hab e he; omega
        · rfl

/-- A write leaves every other slot alone. -/
theorem Memory.read_write_ne {i k : Nat} (m : Memory) (x : Sample) (hk : i ≠ k) :
    (m.write i x).read k = m.read k := by
  induction m with
  | nil => simpa [Memory.write, hk] using Memory.read_entry_append i k x []
  | cons a m ih =>
    obtain ⟨j, y⟩ := a
    simp only [Memory.write]
    split
    · simp only [Memory.read, ih]
    · split
      · rename_i hji
        rw [Memory.read_entry_append, if_neg hk, Memory.read, if_neg (hji ▸ hk)]
      · rw [Memory.read_entry_append, if_neg hk]

theorem Memory.read_write {m : Memory} (h : m.wf = true) (i k : Nat) (x : Sample) :
    (m.write i x).read k = if i = k then x else m.read k := by
  split
  · rename_i hik; exact hik ▸ Memory.read_write_same h i x
  · exact Memory.read_write_ne m x ‹_›

theorem Memory.wf_entry_append {i : Nat} {x : Sample} {m : Memory} (hm : m.wf = true) (hab : m.above i) :
    Memory.wf (Memory.entry i x ++ m) = true := by
  unfold Memory.entry
  split
  · simpa using hm
  · exact (Memory.wf_cons i x m).2 ⟨hab, ‹_›, hm⟩

/-- A write keeps the canonical form. -/
theorem Memory.wf_write {m : Memory} (h : m.wf = true) (i : Nat) (x : Sample) : (m.write i x).wf = true := by
  induction m with
  | nil => simpa [Memory.write] using Memory.wf_entry_append (i := i) (x := x) Memory.wf_nil (by simp [Memory.above])
  | cons a m ih =>
    obtain ⟨j, y⟩ := a
    obtain ⟨hab, hy, hm⟩ := (Memory.wf_cons j y m).1 h
    simp only [Memory.write]
    split
    · rename_i hlt
      refine (Memory.wf_cons j y _).2 ⟨fun e he => ?_, hy, ih hm⟩
      rcases Memory.mem_write he with he | he
      · exact hab e he
      · subst he; exact hlt
    · split
      · rename_i hji
        exact Memory.wf_entry_append hm (hji ▸ hab)
      · refine Memory.wf_entry_append h fun e he => ?_
        rcases List.mem_cons.1 he with he | he
        · subst he; dsimp only; omega
        · have := hab e he; omega

/-- A copy keeps the canonical form. -/
theorem Memory.wf_copyBelow {m : Memory} (h : m.wf = true) (n : Nat) : (m.copyBelow n).wf = true := by
  simp only [Memory.wf, Bool.and_eq_true, Memory.copyBelow] at h ⊢
  exact ⟨decide_eq_true ((of_decide_eq_true h.1).filter _), List.all_eq_true.2 fun e he => List.all_eq_true.1 h.2 e (List.mem_filter.1 he).1⟩

/-- A copied slot reads as the slot it is the copy of. -/
theorem Memory.read_copyBelow (m : Memory) {n i : Nat} (h : i < n) : (m.copyBelow n).read i = m.read i := by
  induction m with
  | nil => rfl
  | cons a m ih =>
    obtain ⟨j, y⟩ := a
    simp only [Memory.copyBelow, List.filter_cons] at ih ⊢
    split
    · simp only [Memory.read, ih]
    · rename_i hj
      have : j ≠ i := by simp at hj; omega
      rw [ih, Memory.read, if_neg this]

theorem Memory.below_write {m : Memory} {n i : Nat} (h : m.below n = true) (hi : i < n) (x : Sample) :
    (m.write i x).below n = true := by
  refine List.all_eq_true.2 fun e he => ?_
  rcases Memory.mem_write he with he | he
  · exact List.all_eq_true.1 h e he
  · subst he; simpa using hi

theorem Memory.below_copyBelow (m : Memory) (n : Nat) : (m.copyBelow n).below n = true :=
  List.all_eq_true.2 fun _ he => (List.mem_filter.1 he).2

/-- A store all of whose listed slots exist is its own copy. -/
theorem Memory.copyBelow_of_below {m : Memory} {n : Nat} (h : m.below n = true) : m.copyBelow n = m :=
  List.filter_eq_self.2 fun e he => List.all_eq_true.1 h e he

theorem Memory.anglesBounded_write {m : Memory} (h : m.anglesBounded = true) (i : Nat) {x : Sample}
    (hx : -357873 ≤ x.angle.toInt ∧ x.angle.toInt ≤ 357873) : (m.write i x).anglesBounded = true := by
  refine List.all_eq_true.2 fun e he => ?_
  rcases Memory.mem_write he with he | he
  · exact List.all_eq_true.1 h e he
  · subst he; simpa using hx

theorem Memory.anglesBounded_copyBelow {m : Memory} (h : m.anglesBounded = true) (n : Nat) :
    (m.copyBelow n).anglesBounded = true :=
  List.all_eq_true.2 fun e he => List.all_eq_true.1 h e (List.mem_filter.1 he).1

theorem Memory.sound_nil (n : Nat) : Memory.sound n [] = true := rfl

/-- A store that lists two samples equal at every slot is one store: canonical forms are unique. -/
theorem Memory.eq_of_read_eq {m k : Memory} (hm : m.wf = true) (hk : k.wf = true)
    (h : ∀ i, m.read i = k.read i) : m = k := by
  induction m generalizing k with
  | nil =>
    cases k with
    | nil => rfl
    | cons b k =>
      obtain ⟨j, y⟩ := b
      have := h j
      simp only [Memory.read, if_true] at this
      exact absurd this.symm ((Memory.wf_cons j y k).1 hk).2.1
  | cons a m ih =>
    obtain ⟨i, x⟩ := a
    obtain ⟨hai, hx, hm⟩ := (Memory.wf_cons i x m).1 hm
    cases k with
    | nil =>
      have := h i
      simp only [Memory.read, if_true] at this
      exact absurd this hx
    | cons b k =>
      obtain ⟨j, y⟩ := b
      obtain ⟨haj, hy, hk'⟩ := (Memory.wf_cons j y k).1 hk
      have key : i = j := by
        by_contra hne
        rcases Nat.lt_or_gt_of_ne hne with hlt | hlt
        · have := h i
          rw [Memory.read, if_pos rfl, Memory.read_above] at this
          · exact hx this
          · intro e he
            rcases List.mem_cons.1 he with he | he
            · subst he; exact hlt
            · exact Nat.lt_trans hlt (haj e he)
        · have := (h j).symm
          rw [Memory.read, if_pos rfl, Memory.read_above] at this
          · exact hy this
          · intro e he
            rcases List.mem_cons.1 he with he | he
            · subst he; exact hlt
            · exact Nat.lt_trans hlt (hai e he)
      subst key
      have hxy : x = y := by simpa [Memory.read] using h i
      subst hxy
      congr 1
      refine ih hm hk' fun l => ?_
      by_cases hl : i = l
      · subst hl; rw [Memory.read_above hai, Memory.read_above haj]
      · simpa [Memory.read, hl] using h l

end Sys2Proof.Machine
end

