-- ==== Sys2Proof/Laws/Ops.lean ====
section
/-! SUPPORT. For each shared operation, once, everything it can do. -/

namespace Sys2Proof.Machine

/-! ### The commit (R100) -/

/-- The append keeps `RING`'s canonical form. -/
theorem appendSamples_ring_wf {s : State} (h : s.ring.wf = true) (xs : List Sample) :
    (appendSamples xs s).ring.wf = true := by
  induction xs generalizing s with
  | nil => exact h
  | cons x xs ih => exact ih (by simpa using Memory.wf_write h s.wcur x)

/-- The append keeps `WCUR` a slot that exists. -/
theorem appendSamples_wcur_lt {s : State} (h : s.wcur < s.cfg.capacity) (xs : List Sample) :
    (appendSamples xs s).wcur < s.cfg.capacity := by
  induction xs generalizing s with
  | nil => exact h
  | cons x xs ih => simpa using ih (s := appendSample x s) (by simpa using Nat.mod_lt _ (by omega))

/-- The append writes only slots that exist. -/
theorem appendSamples_ring_below {s : State} (hw : s.wcur < s.cfg.capacity)
    (h : s.ring.below s.cfg.capacity = true) (xs : List Sample) :
    (appendSamples xs s).ring.below s.cfg.capacity = true := by
  induction xs generalizing s with
  | nil => exact h
  | cons x xs ih =>
    simpa using ih (s := appendSample x s) (by simpa using Nat.mod_lt _ (by omega))
      (by simpa using Memory.below_write h hw x)

/-- The append keeps the angle bound, where the samples meet it. -/
theorem appendSamples_ring_anglesBounded {s : State} (h : s.ring.anglesBounded = true) (xs : List Sample)
    (hx : ∀ x ∈ xs, -357873 ≤ x.angle.toInt ∧ x.angle.toInt ≤ 357873) :
    (appendSamples xs s).ring.anglesBounded = true := by
  induction xs generalizing s with
  | nil => exact h
  | cons x xs ih =>
    exact ih (by simpa using Memory.anglesBounded_write h s.wcur (hx x List.mem_cons_self))
      fun y hy => hx y (List.mem_cons_of_mem _ hy)

/-- The append changes `RING` and `WCUR` alone. -/
theorem appendSamples_frame (xs : List Sample) (s : State) :
    appendSamples xs s = { s with ring := (appendSamples xs s).ring, wcur := (appendSamples xs s).wcur } := by
  ext1 <;> simp

/-- The append of `n` samples advances `WCUR` by `n`, modulo `CAPACITY`. -/
theorem appendSamples_wcur {s : State} (h : s.wcur < s.cfg.capacity) (xs : List Sample) :
    (appendSamples xs s).wcur = (s.wcur + xs.length) % s.cfg.capacity := by
  induction xs generalizing s with
  | nil => simp [Nat.mod_eq_of_lt h]
  | cons x xs ih =>
    rw [appendSamples_cons, ih (by simpa using Nat.mod_lt _ (by omega))]
    simp [Nat.add_assoc, Nat.add_comm 1]

/-- The append reads of the state only the slots, the cursor and the capacity. -/
theorem appendSamples_ring_congr (xs : List Sample) {s t : State} (hr : s.ring = t.ring) (hw : s.wcur = t.wcur)
    (hc : s.cfg.capacity = t.cfg.capacity) :
    (appendSamples xs s).ring = (appendSamples xs t).ring ∧ (appendSamples xs s).wcur = (appendSamples xs t).wcur := by
  induction xs generalizing s t with
  | nil => exact ⟨hr, hw⟩
  | cons x xs ih => exact ih (by simp [hr, hw]) (by simp [hw, hc]) (by simpa using hc)

@[simp] theorem packetSamples_length (mirrored : Bool) (f : Fields) : (packetSamples mirrored f).length = 8 := by
  simp [packetSamples]

/-- What a commit's append leaves. -/
def appendedPacket (s : State) : State :=
  latchFields (bodyFields s.bodyreg) (appendSamples (packetSamples s.cfg.mirrored (bodyFields s.bodyreg)) s)

theorem appendPacket_of_lt {s : State} (h : s.wcur < s.cfg.capacity) : appendPacket s = .next (appendedPacket s) :=
  if_pos h

theorem appendPacket_of_not_lt {s : State} (h : ¬ s.wcur < s.cfg.capacity) :
    appendPacket s = .fault (.ringSlotOutOfRange s.wcur) := if_neg h

/-- A commit drops the frame (R102), or appends it, or names a slot that does not exist. -/
theorem commitWith_cases (ok : Bool) (s : State) :
    (isDropped s.cfg ok = true ∧ commitWith ok s = .next (returnToHunt s)) ∨
    (isDropped s.cfg ok = false ∧ s.wcur < s.cfg.capacity ∧
      commitWith ok s = .next (appendedPacket (returnToHunt s))) ∨
    (isDropped s.cfg ok = false ∧ ¬ s.wcur < s.cfg.capacity ∧
      commitWith ok s = .fault (.ringSlotOutOfRange s.wcur)) := by
  unfold commitWith
  cases hd : isDropped s.cfg ok
  · by_cases hw : s.wcur < s.cfg.capacity
    · exact .inr (.inl ⟨rfl, hw, by simpa using appendPacket_of_lt (s := returnToHunt s) hw⟩)
    · exact .inr (.inr ⟨rfl, hw, by simpa using appendPacket_of_not_lt (s := returnToHunt s) hw⟩)
  · exact .inl ⟨rfl, by simp⟩

/-- If a commit answers a next state, the frame was dropped or appended. -/
theorem commit_next {s t : State} (h : commit s = .next t) :
    t = returnToHunt s ∨ (s.wcur < s.cfg.capacity ∧ t = appendedPacket (returnToHunt s)) := by
  rcases commitWith_cases (Config.checksumOk (frameBytes s.bodyreg)) s with ⟨-, he⟩ | ⟨-, hw, he⟩ | ⟨-, -, he⟩ <;>
    rw [commit, he] at h <;> cases h
  · exact .inl rfl
  · exact .inr ⟨hw, rfl⟩

/-! ### Byte acceptance (R85 to R90) -/

/-- A body byte is captured, or is the 32nd and commits (R90). -/
theorem bodyByte_next {b : Byte} {s t : State} (h : bodyByte b s = .next t) :
    (s.bcnt ≠ 31 ∧ t = setBcnt (s.bcnt + 1) (storeBodyByte b s)) ∨
    (s.bcnt = 31 ∧ commit (setBcnt 0 (storeBodyByte b s)) = .next t) := by
  unfold bodyByte at h
  split at h
  · exact .inr ⟨‹_›, h⟩
  · cases h; exact .inl ⟨‹_›, rfl⟩

/-- A byte of the search completes the marker, matches nothing, or sets the match position (R86). -/
theorem huntByte_cases (b : Byte) (s : State) :
    (matchCount s.mpos b = 4 ∧ huntByte b s = enterBody s) ∨
    (matchCount s.mpos b ≠ 4 ∧ huntByte b s = setMatch (matchCount s.mpos b) s) := by
  unfold huntByte
  split
  · exact .inl ⟨‹_›, rfl⟩
  · split
    · rename_i h0; exact .inr ⟨by omega, by rw [h0]; rfl⟩
    · exact .inr ⟨‹_›, rfl⟩

/-- An offered byte is accepted by the search or the body, or is not accepted (R85, R94). -/
theorem acceptByte_next {b : Byte} {s t : State} (h : acceptByte b s = .next t) :
    (s.phase = .hunt ∧ t = huntByte b s) ∨ (s.phase = .body ∧ bodyByte b s = .next t) ∨
    ((s.phase = .idle ∨ s.phase = .halted) ∧ t = s) := by
  unfold acceptByte at h
  split at h
  · cases h; exact .inl ⟨‹_›, rfl⟩
  · exact .inr (.inl ⟨‹_›, h⟩)
  · cases h; exact .inr (.inr ⟨.inl ‹_›, rfl⟩)
  · cases h; exact .inr (.inr ⟨.inr ‹_›, rfl⟩)

/-- What every accepted byte keeps, a whole line of bytes keeps. -/
theorem acceptBytes_induction {P : State → Prop} (hP : ∀ b s t, acceptByte b s = .next t → P s → P t)
    {bs : List Byte} {s t : State} (h : acceptBytes bs s = .next t) (hs : P s) : P t := by
  induction bs generalizing s with
  | nil => cases h; exact hs
  | cons b bs ih =>
    simp only [acceptBytes] at h
    split at h
    · exact ih h (hP b s _ ‹_› hs)
    · cases h
    · cases h

theorem acceptBytes_cons_of_next {b : Byte} {s t : State} (bs : List Byte) (h : acceptByte b s = .next t) :
    acceptBytes (b :: bs) s = acceptBytes bs t := by
  simp only [acceptBytes, h]

theorem acceptBytes_append_of_next {as : List Byte} {s t : State} (bs : List Byte)
    (h : acceptBytes as s = .next t) : acceptBytes (as ++ bs) s = acceptBytes bs t := by
  induction as generalizing s with
  | nil => cases h; rfl
  | cons a as ih =>
    rw [List.cons_append]
    simp only [acceptBytes] at h ⊢
    split at h
    · exact ih h
    · cases h
    · cases h

/-! ### Fetch and step (R53, R66, R93, R147) -/

/-- A FRAMER turn takes the oldest offered byte, or waits. -/
theorem fetchByte_cases (s : State) :
    (∃ b rest, s.inReady = true ∧ s.src = b :: rest ∧ fetchByte s = (some (.byte b), { s with src := rest })) ∨
    ((s.inReady = false ∨ s.src = []) ∧ fetchByte s = (none, s)) := by
  unfold fetchByte
  cases hr : s.inReady <;> cases hs : s.src
  · exact .inr ⟨.inl rfl, rfl⟩
  · exact .inr ⟨.inl rfl, rfl⟩
  · exact .inr ⟨.inr rfl, rfl⟩
  · exact .inl ⟨_, _, rfl, rfl, rfl⟩

/-- A fetch changes nothing but the schedule, the response port and what the SOURCE still offers. -/
theorem fetch_frame (s : State) :
    (fetch s).2 = { s with sched := s.sched.tail, resp := none, src := (fetch s).2.src } := by
  have hb : ∀ s : State, (fetchByte s).2 = { s with src := (fetchByte s).2.src } := fun s => by
    rcases fetchByte_cases s with ⟨b, rest, -, -, he⟩ | ⟨-, he⟩ <;> rw [he]
  unfold fetch
  cases s.sched with
  | nil => rfl
  | cons t ts =>
    cases t with
    | cmd w => rfl
    | cycle r f =>
      simp only [fetchTurn, fetchCycle]
      split
      · rfl
      · rw [hb]; rfl
    | frame =>
      simp only [fetchTurn, fetchFrame]
      split
      · rfl
      · rw [hb]; rfl

/-- If a step answers a next state, no agent had a step, or the decoded operation ran. -/
theorem step_next {s t : State} (h : step s = .next t) :
    ((fetch s).1 = none ∧ t = (fetch s).2) ∨
    (∃ w i, (fetch s).1 = some w ∧ decode s.cfg s.phase w = .ok i ∧ exec i (fetch s).2 = .next t) := by
  unfold step at h
  split at h
  · cases h; exact .inl ⟨‹_›, rfl⟩
  · rename_i w hw
    split at h
    · exact .inr ⟨w, _, hw, ‹_›, h⟩
    · cases h

end Sys2Proof.Machine
end

