-- ==== Sys2Proof/Laws/Exec.lean ====
section
/-! SUPPORT. What each operation can answer: the meanings behind `exec`, inverted once. -/

namespace Sys2Proof.Machine

theorem exec_byteHunt_next {b : Byte} {s t : State} (h : exec (.byteHunt b) s = .next t) :
    (s.phase = .hunt ∧ t = huntByte b s) ∨ (s.phase ≠ .hunt ∧ t = s) := by
  change execByteHunt b s = _ at h
  unfold execByteHunt at h
  split at h <;> cases h
  · exact .inl ⟨‹_›, rfl⟩
  · exact .inr ⟨‹_›, rfl⟩

theorem exec_byteBody_next {b : Byte} {s t : State} (h : exec (.byteBody b) s = .next t) :
    (s.phase = .body ∧ bodyByte b s = .next t) ∨ (s.phase ≠ .body ∧ t = s) := by
  change execByteBody b s = _ at h
  unfold execByteBody at h
  split at h
  · exact .inl ⟨‹_›, h⟩
  · cases h; exact .inr ⟨‹_›, rfl⟩

/-- A frame is its 36 bytes, accepted in order. -/
theorem exec_frame (f : Fields) (s : State) : exec (.frame f) s = acceptBytes (frameLine f) s := by
  change execFrame f s = _
  rw [execFrame]

/-- RDSNAP answers a slot's sample or an index error, in every state. -/
theorem exec_rdsnap_cases (idx : SlotIdx) (s : State) :
    (idx.toNat < s.cfg.capacity ∧
      exec (.rdsnap idx) s = .next (respond .ok (sampleData (s.snap.read idx.toNat)) s)) ∨
    (s.cfg.capacity ≤ idx.toNat ∧ exec (.rdsnap idx) s = .next (respond .errIndex 0 s)) := by
  by_cases h : s.cfg.capacity ≤ idx.toNat
  · exact .inr ⟨h, if_pos h⟩
  · exact .inl ⟨by omega, if_neg h⟩

theorem exec_ready (idx : SlotIdx) (s : State) : exec (.ready idx) s = .next (respond .ok (rotcData s.rotc) s) := rfl
theorem exec_snap (idx : SlotIdx) (s : State) : exec (.snap idx) s = .next (respond .ok 0 (takeSnapshot s)) := rfl
theorem exec_rpm (idx : SlotIdx) (s : State) : exec (.rpm idx) s = .next (respond .ok (s.rpmRaw.setWidth 45) s) := rfl
theorem exec_start (idx : SlotIdx) (s : State) : exec (.start idx) s = .next (respond .ok 0 (startFramer s)) := rfl
theorem exec_rsv5 (idx : SlotIdx) (s : State) : exec (.rsv5 idx) s = .next (respond .errOp 0 s) := rfl
theorem exec_rsv6 (idx : SlotIdx) (s : State) : exec (.rsv6 idx) s = .next (respond .errOp 0 s) := rfl
theorem exec_rsv7 (idx : SlotIdx) (s : State) : exec (.rsv7 idx) s = .next (respond .errOp 0 s) := rfl
theorem exec_reset (s : State) : exec .reset s = .next (resetBlock s) := rfl
theorem exec_rxFault (s : State) : exec .rxFault s = .next (takeException .serialFailure s) := rfl

end Sys2Proof.Machine
end

