-- ==== Sys2Proof/Laws/PerInstr.lean ====
section
/-! SUPPORT. For each operation: what its port carries has the fixed bits of its row in spec/opcode_table.json. -/

namespace Sys2Proof.Laws

/-- The fixed bits of each row: `cmd[2:0]` of a command (R71), none of a byte (R86, R90), the marker of a frame (R63), and
one asserted pin (R68, R69). -/
def TableRow.Statement : Instr → Prop
  | .ready idx => ∃ w, encode (.ready idx) = .cmd w ∧ w.extractLsb' 0 3 = 0b000
  | .snap idx => ∃ w, encode (.snap idx) = .cmd w ∧ w.extractLsb' 0 3 = 0b001
  | .rdsnap idx => ∃ w, encode (.rdsnap idx) = .cmd w ∧ w.extractLsb' 0 3 = 0b010
  | .rpm idx => ∃ w, encode (.rpm idx) = .cmd w ∧ w.extractLsb' 0 3 = 0b011
  | .start idx => ∃ w, encode (.start idx) = .cmd w ∧ w.extractLsb' 0 3 = 0b100
  | .rsv5 idx => ∃ w, encode (.rsv5 idx) = .cmd w ∧ w.extractLsb' 0 3 = 0b101
  | .rsv6 idx => ∃ w, encode (.rsv6 idx) = .cmd w ∧ w.extractLsb' 0 3 = 0b110
  | .rsv7 idx => ∃ w, encode (.rsv7 idx) = .cmd w ∧ w.extractLsb' 0 3 = 0b111
  | .byteHunt b => encode (.byteHunt b) = .byte b
  | .byteBody b => encode (.byteBody b) = .byte b
  | .frame f => ∃ bs, encode (.frame f) = .frame bs ∧ bs.take 4 = [0x55, 0xAA, 0x03, 0x08]
  | .reset => encode .reset = .pins 1 0
  | .rxFault => encode .rxFault = .pins 0 1

theorem TableRow.ready (idx : SlotIdx) : TableRow.Statement (.ready idx) := ⟨_, rfl, cmdWord_op _ _⟩
theorem TableRow.snap (idx : SlotIdx) : TableRow.Statement (.snap idx) := ⟨_, rfl, cmdWord_op _ _⟩
theorem TableRow.rdsnap (idx : SlotIdx) : TableRow.Statement (.rdsnap idx) := ⟨_, rfl, cmdWord_op _ _⟩
theorem TableRow.rpm (idx : SlotIdx) : TableRow.Statement (.rpm idx) := ⟨_, rfl, cmdWord_op _ _⟩
theorem TableRow.start (idx : SlotIdx) : TableRow.Statement (.start idx) := ⟨_, rfl, cmdWord_op _ _⟩
theorem TableRow.rsv5 (idx : SlotIdx) : TableRow.Statement (.rsv5 idx) := ⟨_, rfl, cmdWord_op _ _⟩
theorem TableRow.rsv6 (idx : SlotIdx) : TableRow.Statement (.rsv6 idx) := ⟨_, rfl, cmdWord_op _ _⟩
theorem TableRow.rsv7 (idx : SlotIdx) : TableRow.Statement (.rsv7 idx) := ⟨_, rfl, cmdWord_op _ _⟩
theorem TableRow.byteHunt (b : Byte) : TableRow.Statement (.byteHunt b) := rfl
theorem TableRow.byteBody (b : Byte) : TableRow.Statement (.byteBody b) := rfl
theorem TableRow.frame (f : Fields) : TableRow.Statement (.frame f) := ⟨_, rfl, rfl⟩
theorem TableRow.reset : TableRow.Statement .reset := rfl
theorem TableRow.rxFault : TableRow.Statement .rxFault := rfl

end Sys2Proof.Laws
end

