-- ==== Sys2Proof/Laws/Response.lean ====
section
/-! SUPPORT. The response word's fields (R72) and the sample's place in its data (R74), as numbers. -/

namespace Sys2Proof.Machine

theorem respWord_toNat (st : Status) (d : DataWord) :
    (respWord st d).toNat = 2 ^ 45 * st.code.toNat + d.toNat := by
  unfold respWord
  rw [BitVec.toNat_append, ← Nat.shiftLeft_add_eq_or_of_lt (by omega), Nat.shiftLeft_eq]
  omega

@[simp] theorem respStatus_respWord (st : Status) (d : DataWord) : respStatus (respWord st d) = st.code := by
  apply BitVec.eq_of_toNat_eq
  rw [respStatus, BitVec.extractLsb'_toNat, respWord_toNat, Nat.shiftRight_eq_div_pow]
  have := d.isLt
  have := st.code.isLt
  omega

@[simp] theorem respData_respWord (st : Status) (d : DataWord) : respData (respWord st d) = d := by
  apply BitVec.eq_of_toNat_eq
  rw [respData, BitVec.extractLsb'_toNat, respWord_toNat, Nat.shiftRight_zero]
  have := d.isLt
  omega

theorem sampleData_toNat (x : Sample) :
    (sampleData x).toNat = 2 ^ 24 * x.angle.toNat + 2 ^ 8 * x.distance.toNat + x.intensity.toNat := by
  unfold sampleData
  rw [BitVec.toNat_append, ← Nat.shiftLeft_add_eq_or_of_lt (by omega), Nat.shiftLeft_eq,
    BitVec.toNat_append, ← Nat.shiftLeft_add_eq_or_of_lt (by omega), Nat.shiftLeft_eq]
  omega

end Sys2Proof.Machine
end

