-- ==== Sys2Proof/Tests/Slice0.lean ====
section
/-! SUPPORT. The model's own tests: ill-formed terms, words written out from the spec's encodings, the spec's own vectors
(spec/95_test_vectors.md), and for each statement with hypotheses a case that meets them. -/

namespace Sys2Proof.Tests

open Sys2Proof.Machine

/-! ### Helpers -/

/-- Whether an outcome is a next state of which `p` holds. -/
def next (o : Out) (p : State → Bool) : Bool :=
  match o with
  | .next t => p t
  | .fault _ => false
  | .refused _ => false

theorem next_exists {o : Out} {p : State → Bool} (h : next o p = true) : ∃ t, o = .next t ∧ p t = true := by
  cases o with
  | next t => exact ⟨t, rfl, h⟩
  | fault r => cases h
  | refused r => cases h

/-- The configuration of program P1: `CAPACITY = 16`, unmirrored, not strict. -/
def cfg16 : Config := ⟨16, false, false, by decide⟩

/-- The configuration of program P4. -/
def cfg5 : Config := ⟨5, false, false, by decide⟩

/-- The configuration of program P5. -/
def cfgStrict : Config := ⟨8, false, true, by decide⟩

/-- The state after reset, in a given phase and configuration. -/
def at_ (c : Config) (ph : Phase) : State := { State.reset with cfg := c, cfgIn := c, phase := ph }

/-- The 36 bytes of R81. -/
def frame81 : List Byte :=
  [0x55, 0xAA, 0x03, 0x08, 0x00, 0x4B, 0x00, 0xA0, 0xE8, 0x03, 0x10, 0xE9, 0x03, 0x11, 0xEA, 0x03, 0x12, 0xEB]
    ++ [0x03, 0x13, 0xEC, 0x03, 0x14, 0xED, 0x03, 0x15, 0xEE, 0x03, 0x16, 0xEF, 0x03, 0x17, 0x00, 0xA2, 0x00, 0x00]

/-- The fields of R81. -/
def fields81 : Fields where
  rawSpeed := 0x4B00
  rawStart := 0xA000
  dist := Vector.ofFn fun k : Fin 8 => BitVec.ofNat 16 (1000 + k.val)
  inten := Vector.ofFn fun k : Fin 8 => BitVec.ofNat 8 (16 + k.val)
  rawEnd := 0xA200
  cks := 0

/-- A packet with zero distances and intensities. -/
def sweep (rawStart rawEnd : Half) : Fields where
  rawSpeed := 0x4B00
  rawStart := rawStart
  dist := Vector.replicate 8 0
  inten := Vector.replicate 8 0
  rawEnd := rawEnd
  cks := 0

/-- A state about to accept the 32nd body byte of a packet that starts at `rawStart`. -/
def lastByte (c : Config) (rawStart : Half) : State :=
  { at_ c .body with
    bcnt := 31
    bodyreg := (((Vector.replicate 32 0).set 2 (loByte rawStart)).set 3 (hiByte rawStart)).set 28 0x01 }

/-! ### WellFormed refuses what no port carries -/

theorem test_wf_ready : Instr.wellFormed Config.default .hunt (.ready 512) = false := by decide
theorem test_wf_snap : Instr.wellFormed Config.default .hunt (.snap 512) = false := by decide
theorem test_wf_rdsnap : Instr.wellFormed cfg5 .hunt (.rdsnap 8) = false := by decide
theorem test_wf_rpm : Instr.wellFormed Config.default .hunt (.rpm 512) = false := by decide
theorem test_wf_start : Instr.wellFormed Config.default .hunt (.start 512) = false := by decide
theorem test_wf_rsv5 : Instr.wellFormed Config.default .hunt (.rsv5 512) = false := by decide
theorem test_wf_rsv6 : Instr.wellFormed Config.default .hunt (.rsv6 512) = false := by decide
theorem test_wf_rsv7 : Instr.wellFormed Config.default .hunt (.rsv7 512) = false := by decide
theorem test_wf_byteHunt : Instr.wellFormed Config.default .body (.byteHunt 0x55) = false := by decide
theorem test_wf_byteBody : Instr.wellFormed Config.default .hunt (.byteBody 0x55) = false := by decide

/-! ### Words written out from the spec -/

/-- R80: the words at `CAPACITY = 480`; V-E2, V-K7. -/
theorem test_decode_commands :
    decode Config.default .idle (.cmd 0x000) = .ok (.ready 0) ∧ decode Config.default .idle (.cmd 0x001) = .ok (.snap 0) ∧
    decode Config.default .idle (.cmd 0x02A) = .ok (.rdsnap 5) ∧ decode Config.default .idle (.cmd 0xEFA) = .ok (.rdsnap 479) ∧
    decode Config.default .idle (.cmd 0xF02) = .ok (.rdsnap 480) ∧ decode Config.default .idle (.cmd 0x003) = .ok (.rpm 0) ∧
    decode Config.default .idle (.cmd 0x004) = .ok (.start 0) ∧ decode Config.default .idle (.cmd 0x005) = .ok (.rsv5 0) ∧
    decode Config.default .idle (.cmd 0x006) = .ok (.rsv6 0) ∧ decode Config.default .idle (.cmd 0x007) = .ok (.rsv7 0) ∧
    decode Config.default .idle (.cmd 0xFF8) = .ok (.ready 511) := by decide

/-- P1 (`IDX_W = 4`) and P4 (`IDX_W = 3`): the same idx at another width, and a word too wide for a narrow port. -/
theorem test_decode_narrow_commands :
    decode cfg16 .hunt (.cmd 0x3A) = .ok (.rdsnap 7) ∧ decode cfg5 .hunt (.cmd 0x2A) = .ok (.rdsnap 5) ∧
    decode cfg5 .hunt (.cmd 0x42) = .error .commandTooWide := by decide

/-- R85: the phase, not the byte, selects the byte operation. -/
theorem test_decode_bytes :
    decode cfg16 .hunt (.byte 0xE8) = .ok (.byteHunt 0xE8) ∧ decode cfg16 .body (.byte 0x55) = .ok (.byteBody 0x55) ∧
    decode cfg16 .idle (.byte 0x55) = .error .byteNotAccepted ∧
    decode cfg16 .halted (.byte 0x55) = .error .byteNotAccepted := by decide

/-- R81: the frame, byte by byte. -/
theorem test_decode_frame : decode cfg16 .hunt (.frame frame81) = .ok (.frame fields81) := by decide

theorem test_decode_not_frames :
    decode cfg16 .hunt (.frame (frame81.take 35)) = .error .frameLength ∧
    decode cfg16 .hunt (.frame (0x54 :: frame81.drop 1)) = .error .badMarker := by decide

/-- R68, R69, R147 (b). -/
theorem test_decode_pins :
    decode cfg16 .body (.pins 1 0) = .ok .reset ∧ decode cfg16 .body (.pins 0 1) = .ok .rxFault ∧
    decode cfg16 .body (.pins 1 1) = .ok .reset ∧ decode cfg16 .body (.pins 0 0) = .error .pinsIdle := by decide

/-- Log 12: bare table words. -/
theorem test_table_words :
    decodeTableWord 8 0x00 = some (.ready 0) ∧ decodeTableWord 8 0x2A = some (.rdsnap 5) ∧
    decodeTableWord 8 0xFF = some (.rsv7 31) ∧ decodeTableWord 32 0x0803AA55 = some (.frame
      ⟨0, 0, Vector.replicate 8 0, Vector.replicate 8 0, 0, 0⟩) ∧ decodeTableWord 32 0x0803AA54 = none := by decide

/-- Log 8: the very next step runs the word placed. -/
theorem test_fetch_word_command : step (State.reset.withFetchWord 8 0x04) = exec (.start 0) State.reset := rfl

theorem test_fetch_word_frame :
    next (step (State.reset.withFetchWord 32 0x0803AA55)) (fun t => decide (t.wcur = 8 ∧ t.src = [] ∧ t.phase = .hunt))
      = true := by decide

/-! ### Operations on the spec's vectors -/

/-- R121's example and V-K7: `READY` with index bits set answers the flag. -/
theorem test_ready : next (exec (.ready 511) { State.reset with rotc := true }) (fun t => decide (t.resp = some 1)) = true := by
  decide

/-- V-K2: `SNAP` answers OK and clears the flag; what it copied is the ring. -/
theorem test_snap : next (exec (.snap 0) { State.reset with rotc := true, ring := [(2, ⟨512, 3, 4⟩)], snap := [(1, ⟨7, 8, 9⟩)] })
    (fun t => decide (t.rotc = false ∧ t.snap = [(2, ⟨512, 3, 4⟩)] ∧ t.resp = some 0)) = true := by decide

/-- V-K3, V-K4: the response words of one slot, mirrored and not. -/
theorem test_rdsnap :
    next (exec (.rdsnap 1) { State.reset with snap := [(1, ⟨512, 1001, 17⟩)] })
      (fun t => decide (t.resp = some 0x20003E911)) = true ∧
    next (exec (.rdsnap 1) { State.reset with snap := [(1, ⟨-512, 0, 0⟩)] })
      (fun t => decide (t.resp = some 0x1FFE00000000)) = true := by decide

/-- V-E1: status 2, data 0. -/
theorem test_rdsnap_index :
    next (exec (.rdsnap 480) State.reset) (fun t => decide (t.resp = some 0x400000000000)) = true ∧
    next (exec (.rdsnap 511) State.reset) (fun t => decide (t.resp = some 0x400000000000)) = true := by decide

/-- V-K6. -/
theorem test_rpm : next (exec (.rpm 3) { State.reset with rpmRaw := 0x4B00 }) (fun t => decide (t.resp = some 0x4B00)) = true := by
  decide

/-- R125, V-K5, V-E3: `IDLE` starts, `HALTED` stays. -/
theorem test_start :
    next (exec (.start 0) State.reset) (fun t => decide (t.phase = .hunt ∧ t.resp = some 0)) = true ∧
    next (exec (.start 0) (at_ cfg16 .halted)) (fun t => decide (t.phase = .halted ∧ t.resp = some 0)) = true := by decide

/-- V-E2: status 1, data 0. -/
theorem test_rsv5 : next (exec (.rsv5 0) State.reset) (fun t => decide (t = { State.reset with resp := some 0x200000000000 })) = true := by
  decide
theorem test_rsv6 : next (exec (.rsv6 0) State.reset) (fun t => decide (t = { State.reset with resp := some 0x200000000000 })) = true := by
  decide
theorem test_rsv7 : next (exec (.rsv7 0) State.reset) (fun t => decide (t = { State.reset with resp := some 0x200000000000 })) = true := by
  decide

/-- V-F3: the decoy `55 AA` before a marker, and V-F7's repeated `AA`. -/
theorem test_byteHunt_decoy :
    next (acceptBytes [0x55, 0xAA, 0x55, 0xAA, 0x03] (at_ cfg16 .hunt)) (fun t => decide (t.phase = .hunt ∧ t.mpos = 3)) = true ∧
    next (acceptBytes [0x55, 0xAA, 0x55, 0xAA, 0x03, 0x08] (at_ cfg16 .hunt)) (fun t => decide (t.triple = (.body, 0, 0))) = true ∧
    next (acceptBytes [0x55, 0xAA, 0xAA, 0x03, 0x08] (at_ cfg16 .hunt)) (fun t => decide (t.triple = (.hunt, 0, 0))) = true := by
  decide

/-- R86's example: from `MPOS = 2` the byte `55` leaves 1. -/
theorem test_byteHunt_overlap :
    next (exec (.byteHunt 0x55) { at_ cfg16 .hunt with mpos := 2 }) (fun t => decide (t.mpos = 1)) = true := by decide

/-- V-F12. -/
theorem test_byteBody : next (exec (.byteBody 0xE8) { at_ cfg16 .body with bcnt := 5 })
    (fun t => decide (t.bodyreg[5] = 0xE8 ∧ t.bcnt = 6 ∧ t.phase = .body)) = true := by decide

/-- V-F10: a marker split across a body's end is not detected. -/
theorem test_byteBody_end : next (acceptBytes [0x00, 0x08] { lastByte cfg16 0xA000 with
      bodyreg := (((lastByte cfg16 0xA000).bodyreg.set 28 0x55).set 29 0xAA).set 30 0x03 })
    (fun t => decide (t.triple = (.hunt, 0, 0) ∧ t.cksum = 0x0003 ∧ t.wcur = 8)) = true := by decide

/-- R100's example, P1: the frame of R81 at `CAPACITY = 16`. -/
theorem test_frame : next (exec (.frame fields81) (at_ cfg16 .hunt)) (fun t => decide (t.ring =
    [(0, ⟨0, 1000, 16⟩), (1, ⟨512, 1001, 17⟩), (2, ⟨1024, 1002, 18⟩), (3, ⟨1536, 1003, 19⟩), (4, ⟨2048, 1004, 20⟩),
      (5, ⟨2560, 1005, 21⟩), (6, ⟨3072, 1006, 22⟩), (7, ⟨3584, 1007, 23⟩)] ∧
    t.wcur = 8 ∧ t.rotc = false ∧ t.prevStart = 0xA000 ∧ t.rpmRaw = 0x4B00 ∧ t.triple = (.hunt, 0, 0))) = true := by decide

/-- P4: `CAPACITY = 5`, where one packet writes three slots twice. -/
theorem test_frame_small_ring : next (exec (.frame { fields81 with
      rawSpeed := 0x1000
      dist := Vector.ofFn fun k : Fin 8 => BitVec.ofNat 16 (10 + k.val)
      inten := Vector.ofFn fun k : Fin 8 => BitVec.ofNat 8 k.val }) (at_ cfg5 .hunt)) (fun t => decide (t.ring =
    [(0, ⟨2560, 15, 5⟩), (1, ⟨3072, 16, 6⟩), (2, ⟨3584, 17, 7⟩), (3, ⟨1536, 13, 3⟩), (4, ⟨2048, 14, 4⟩)] ∧ t.wcur = 3)) = true := by
  decide

/-- V-C3, V-C4, V-C6: 350 to 10 degrees; a sweep still negative after +360; the largest angle. -/
theorem test_angles :
    (List.range 8).map (sampleAngle (sweep 0xF780 0xA280)) = [179200, 180480, 181760, 183040, 184320, 185600, 186880, 188160] ∧
    (List.range 8).map (sampleAngle (sweep 0xFFFF 0x0000)) = [196600, 154105, 111610, 69115, 26620, -15875, -58370, -100865] ∧
    (List.range 8).map (sampleAngle (sweep 0xFFFF 0xFFFE)) = [196600, 219639, 242678, 265717, 288756, 311795, 334834, 357873] := by
  decide

/-- V-C9: a strict block whose `CHECKSUM_OK` answers 0 drops the frame. -/
theorem test_strict_drop : next (commitWith false (at_ cfgStrict .body))
    (fun t => decide (t = at_ cfgStrict .hunt)) = true := by decide

/-- V-C13: the flag rises on 10 degrees after 300, stays at an equal start, and does not rise on 20 after 10. -/
theorem test_wrap_flag :
    rotcAfterCommit false (40960 + 640) (40960 + 19200) = true ∧ rotcAfterCommit true 0xA140 0xA140 = true ∧
    rotcAfterCommit false 0xA140 0xA140 = false ∧ rotcAfterCommit false (40960 + 1280) (40960 + 640) = false := by decide

/-- V-R1: a reset in `BODY`. -/
theorem test_reset : next (exec .reset { at_ cfg16 .body with bcnt := 20, wcur := 8, ring := [(0, ⟨1, 2, 3⟩)], rotc := true })
    (fun t => decide (t.triple = (.idle, 0, 0) ∧ t.inReady = false ∧ t.wcur = 0 ∧ t.ring = [] ∧ t.rotc = false)) = true := by decide

/-- V-E3, V-E4. -/
theorem test_rxFault :
    next (exec .rxFault { at_ cfg16 .body with bcnt := 10 }) (fun t => decide (t.triple = (.halted, 0, 10) ∧ t.wcur = 0)) = true ∧
    next (exec .rxFault (at_ cfg16 .halted)) (fun t => decide (t = at_ cfg16 .halted)) = true := by decide

/-- R147 (b): a byte offered with `rx_fault` stays with the source. -/
theorem test_fault_before_byte : next (step { at_ cfg16 .hunt with src := [0x55], sched := [.cycle 0 1] })
    (fun t => decide (t.phase = .halted ∧ t.src = [0x55])) = true := by decide

/-- V-F11: in `IDLE` an offered byte waits. -/
theorem test_idle_holds_byte : next (step { State.reset with src := [0x55], sched := [.cycle 0 0] })
    (fun t => decide (t.phase = .idle ∧ t.src = [0x55] ∧ t.sched = [])) = true := by decide

/-! ### What meets each statement's hypotheses -/

/-- The least and the greatest index the port carries, a byte in each phase that takes one, a frame and the pins. -/
theorem witness_DecodeInvertsEncode :
    Instr.wellFormed Config.default .idle (.ready 0) = true ∧ Instr.wellFormed Config.default .idle (.snap 511) = true ∧
    Instr.wellFormed cfg5 .idle (.rdsnap 7) = true ∧ Instr.wellFormed Config.default .halted (.rpm 511) = true ∧
    Instr.wellFormed Config.default .body (.start 511) = true ∧ Instr.wellFormed Config.default .body (.rsv5 511) = true ∧
    Instr.wellFormed Config.default .body (.rsv6 511) = true ∧ Instr.wellFormed Config.default .body (.rsv7 511) = true ∧
    Instr.wellFormed Config.default .hunt (.byteHunt 0xFF) = true ∧
    Instr.wellFormed Config.default .body (.byteBody 0xFF) = true ∧
    Instr.wellFormed Config.default .hunt (.frame fields81) = true ∧ Instr.wellFormed Config.default .idle .reset = true ∧
    Instr.wellFormed Config.default .halted .rxFault = true := by decide

theorem witness_CommandWordsDecodeOneToOne :
    (0xFFF : CmdWord).toNat < 2 ^ (Config.default.idxW + 3) ∧ ¬ (0x1000 : CmdWord).toNat < 2 ^ (Config.default.idxW + 3) := by
  decide

theorem witness_FrameLinesDecodeOneToOne :
    (frame81.length = 36 ∧ frame81.take 4 = [0x55, 0xAA, 0x03, 0x08]) ∧
    ¬ ((frame81 ++ [0]).length = 36 ∧ (frame81 ++ [0]).take 4 = [0x55, 0xAA, 0x03, 0x08]) ∧
    ¬ ((0x54 :: frame81.drop 1).length = 36 ∧ (0x54 :: frame81.drop 1).take 4 = [0x55, 0xAA, 0x03, 0x08]) := by decide

/-- `CAPACITY` 480 at width 9, and 1 at width 1. -/
theorem witness_IndexWidthIsLeast : (1 ≤ 9 ∧ Config.default.capacity ≤ 2 ^ 9) ∧
    (1 ≤ 1 ∧ (⟨1, false, false, by decide⟩ : Config).capacity ≤ 2 ^ 1) := by decide

theorem witness_IllegalCapacityIsRefused :
    (1 ≤ 1 ∧ 1 ≤ 65536) ∧ (1 ≤ 65536 ∧ 65536 ≤ 65536) ∧ ¬ (1 ≤ 0 ∧ 0 ≤ 65536) ∧ ¬ (1 ≤ 65537 ∧ 65537 ≤ 65536) := by decide

/-- Each kind of turn presents a well-formed operation. -/
theorem witness_StepRunsDecodedOperation :
    (decode cfg16 .idle (.cmd 0x7F) = .ok (.rsv7 15) ∧ Instr.wellFormed cfg16 .idle (.rsv7 15) = true) ∧
    (decode cfg16 .body (.pins 1 1) = .ok .reset ∧ Instr.wellFormed cfg16 .body .reset = true) ∧
    (decode cfg16 .body (.pins 0 1) = .ok .rxFault ∧ Instr.wellFormed cfg16 .body .rxFault = true) ∧
    (decode cfg16 .hunt (.byte 0) = .ok (.byteHunt 0) ∧ Instr.wellFormed cfg16 .hunt (.byteHunt 0) = true) ∧
    (decode cfg16 .body (.byte 0xFF) = .ok (.byteBody 0xFF) ∧ Instr.wellFormed cfg16 .body (.byteBody 0xFF) = true) ∧
    (decode cfg16 .body (.frame frame81) = .ok (.frame fields81) ∧ (at_ cfg16 .body).inReady = true ∧
      Instr.wellFormed cfg16 .body (.frame fields81) = true) := by decide

/-- No turn; no byte; a byte offered in `IDLE` and in `HALTED`. -/
theorem witness_WaitingChangesNothing : ∃ s t u v : State,
    s.sched = [] ∧ (t.sched = .cycle 0 0 :: [] ∧ t.phase = .hunt ∧ t.src = []) ∧
    (u.sched = .cycle 0 0 :: [] ∧ u.phase = .idle ∧ u.src = [0x55]) ∧
    (v.sched = .frame :: [] ∧ v.phase = .halted ∧ v.src = frame81) :=
  ⟨State.reset, { at_ cfg16 .hunt with sched := [.cycle 0 0] }, { State.reset with sched := [.cycle 0 0], src := [0x55] },
    { at_ cfg16 .halted with sched := [.frame], src := frame81 }, by decide⟩

theorem witness_ResetThenFaultThenByte : ∃ s t : State,
    s.sched = .cycle 1 1 :: [] ∧ t.sched = .cycle 0 1 :: [] ∧ t.src = [0x55] :=
  ⟨{ State.reset with sched := [.cycle 1 1] }, { at_ cfg16 .hunt with sched := [.cycle 0 1], src := [0x55] }, by decide⟩

/-- A step that takes no byte, one that takes one, and one that takes a frame. -/
theorem witness_BytesAreTakenOnceInOrder :
    next (step { State.reset with src := [1], sched := [.cycle 0 0] }) (fun t => decide (t.src = [1])) = true ∧
    next (step { at_ cfg16 .hunt with src := [1, 2], sched := [.cycle 0 0] }) (fun t => decide (t.src = [2])) = true ∧
    next (step { at_ cfg16 .hunt with src := frame81 ++ [2], sched := [.frame] }) (fun t => decide (t.src = [2])) = true := by
  decide

theorem witness_RdsnapReadsOneSlot :
    (479 : SlotIdx).toNat < State.reset.cfg.capacity ∧ ¬ (480 : SlotIdx).toNat < State.reset.cfg.capacity := by decide

/-- A command, and one with an error status. -/
theorem witness_CommandsCompleteAndKeepFramerData :
    Instr.agent (.snap 0) = .cons ∧ Instr.agent (.rsv5 0) = .cons ∧
    next (exec (.rsv5 0) State.reset) (fun t => match t.resp with
      | some w => decide (respStatus w ≠ 0)
      | none => false) = true := by decide

theorem witness_HuntTransitionTable : (at_ cfg16 .hunt).phase = .hunt ∧ (at_ cfg16 .hunt).mpos ≠ 3 ∧
    { at_ cfg16 .hunt with mpos := 3 }.phase = .hunt := by decide

/-- No marker (V-F7, and no byte at all), and a marker only at the end (V-F3). -/
theorem witness_SearchFindsFirstMarker :
    ((at_ cfg16 .hunt).phase = .hunt ∧ (at_ cfg16 .hunt).mpos = 0) ∧
    ¬ [0x55, 0xAA, 0x03, 0x08] <:+: ([] : List Byte) ∧
    ¬ [0x55, 0xAA, 0x03, 0x08] <:+: ([0x55, 0xAA, 0xAA, 0x03, 0x08] : List Byte) ∧
    [0x55, 0xAA, 0x03, 0x08] <:+ ([0x55, 0xAA, 0x55, 0xAA, 0x03, 0x08] : List Byte) ∧
    ¬ [0x55, 0xAA, 0x03, 0x08] <:+: ([0x55, 0xAA, 0x55, 0xAA, 0x03, 0x08] : List Byte).dropLast := by decide

theorem witness_BodyByteIsCaptured :
    ((at_ cfg16 .body).phase = .body ∧ (at_ cfg16 .body).bcnt ≠ 31) ∧ { at_ cfg16 .body with bcnt := 30 }.bcnt ≠ 31 := by decide

/-- 31 bytes from the start of a body, and none at its last byte. -/
theorem witness_BodyBytesAreData :
    ((at_ cfg16 .body).phase = .body ∧ (at_ cfg16 .body).bcnt.val + (frame81.take 31).length ≤ 31) ∧
    (lastByte cfg16 0).bcnt.val + ([] : List Byte).length ≤ 31 := by decide

theorem witness_DisabledByteOperationsChangeNothing :
    (at_ cfg16 .body).phase ≠ .hunt ∧ (at_ cfg16 .hunt).phase ≠ .body ∧ State.reset.phase = .idle ∧
    (at_ cfg16 .halted).phase = .halted := by decide

/-- The invariants hold of a state in each phase. -/
theorem inv_idle : (at_ cfg16 .idle).Inv := ⟨by decide, by decide, by decide, by decide, by decide⟩
theorem inv_hunt : { at_ cfg16 .hunt with mpos := 3 }.Inv := ⟨by decide, by decide, by decide, by decide, by decide⟩
theorem inv_body : { at_ cfg16 .body with bcnt := 30 }.Inv := ⟨by decide, by decide, by decide, by decide, by decide⟩
theorem inv_lastByte : (lastByte cfg16 0xA000).Inv := ⟨by decide, by decide, by decide, by decide, by decide⟩
theorem inv_halted : { at_ cfg16 .halted with bcnt := 10 }.Inv := ⟨by decide, by decide, by decide, by decide, by decide⟩

theorem witness_ControlFlowTable :
    (next (exec .reset (lastByte cfg16 0xA000)) fun _ => true) = true ∧
    (next (exec .rxFault { at_ cfg16 .body with bcnt := 30 }) fun _ => true) = true ∧
    (next (exec (.start 0) (at_ cfg16 .idle)) fun _ => true) = true ∧
    (next (exec (.byteHunt 0x08) { at_ cfg16 .hunt with mpos := 3 }) fun _ => true) = true ∧
    (next (exec (.byteHunt 0x55) { at_ cfg16 .hunt with mpos := 3 }) fun _ => true) = true ∧
    (next (exec (.byteBody 0) { at_ cfg16 .body with bcnt := 30 }) fun _ => true) = true ∧
    (next (exec (.byteBody 0) (lastByte cfg16 0xA000)) fun _ => true) = true ∧
    (next (exec (.byteBody 0) { at_ cfg16 .halted with bcnt := 10 }) fun _ => true) = true ∧
    (next (exec (.frame fields81) { at_ cfg16 .hunt with mpos := 3 }) fun _ => true) = true ∧
    (next (exec (.frame fields81) { at_ cfg16 .halted with bcnt := 10 }) fun _ => true) = true ∧
    (next (exec (.snap 0) (at_ cfg16 .idle)) fun _ => true) = true := by decide

/-- The last byte of a body in a block that is not strict, with the cursor at the last slot. -/
theorem witness_LastBodyByteCommits : ∃ s : State, s.phase = .body ∧ s.bcnt = 31 ∧ s.wcur < s.cfg.capacity ∧
    s.wcur + 1 = s.cfg.capacity ∧ s.cfg.strict = false :=
  ⟨{ lastByte cfg16 0xA000 with wcur := 15 }, by decide⟩

/-- As before, with a canonical ring; at `CAPACITY = 5` sample 7 is the last writer of slot 2 and sample 2 is not, and at
`CAPACITY = 16` slot 8 has no writer from cursor 0. -/
theorem witness_CommitWritesItsSlots :
    (∃ s : State, s.phase = .body ∧ s.bcnt = 31 ∧ s.wcur < s.cfg.capacity ∧ s.ring.wf = true ∧ s.cfg.strict = false) ∧
    isLastWriter 5 0 2 7 ∧ ¬ isLastWriter 5 0 2 2 ∧ ∀ i : Fin 8, (0 + i.val) % 16 ≠ 8 :=
  ⟨⟨lastByte cfg5 0xA000, by decide⟩, by unfold isLastWriter; decide, by unfold isLastWriter; decide, by decide⟩

theorem witness_ChecksumGate : ∃ s t : State,
    (s.phase = .body ∧ s.bcnt = 31 ∧ s.cfg.strict = true ∧ s.wcur < s.cfg.capacity) ∧
    (t.phase = .body ∧ t.bcnt = 31 ∧ t.cfg.strict = false) :=
  ⟨lastByte cfgStrict 0xA000, lastByte cfg16 0xA000, by decide⟩

/-- V-C4, and both sides of where the sweep is zero. -/
theorem witness_SweepFollowsRawAngles :
    sweepUnits (sweep 0xFFFF 0x0000) < 0 ∧ sweepUnits (sweep 23041 0) < 0 ∧ ¬ sweepUnits (sweep 23040 0) < 0 := by decide

/-- V-C7, V-C6. -/
theorem witness_StoredAnglesAreExactAndBounded :
    ((sweep 0 0).rawStart = 0 ∧ (sweep 0 0).rawEnd = 0) ∧
    ((sweep 0xFFFF 0xFFFE).rawStart.toNat = 65535 ∧ (sweep 0xFFFF 0xFFFE).rawEnd.toNat = 65534) := by decide

theorem witness_MirroringNegatesEveryAngle : ∃ s : State, s.phase = .body ∧ s.bcnt = 31 ∧ s.ring.wf = true ∧
    s.cfg.strict = false ∧ next (exec (.byteBody 0) s) (fun _ => true) = true ∧
    next (exec (.byteBody 0) { s with cfg := { s.cfg with mirrored := !s.cfg.mirrored } }) (fun _ => true) = true :=
  ⟨lastByte cfg16 0xA000, by decide⟩

/-- A commit, and a byte before it. -/
theorem witness_FirstCommitNeverSetsFlag :
    ((lastByte cfg16 0).phase = .body ∧ (lastByte cfg16 0).prevStart = 0) ∧
    next (exec (.byteBody 0) (lastByte cfg16 0)) (fun t => decide (t.wcur = 8)) = true ∧
    next (exec (.byteBody 0) (at_ cfg16 .body)) (fun t => decide (t.bcnt = 1)) = true := by decide

theorem witness_FrameCommitsItsFields : ∃ s : State,
    s.phase = .hunt ∧ s.mpos = 3 ∧ s.wcur < s.cfg.capacity ∧ s.cfg.strict = false :=
  ⟨{ at_ cfg16 .hunt with mpos := 3, wcur := 15 }, by decide⟩

theorem witness_FrameReachesChecksumGate : ∃ s : State, s.phase = .hunt ∧ s.cfg.strict = true :=
  ⟨at_ cfgStrict .hunt, by decide⟩

theorem witness_FrameInsideBodyIsData : ∃ s t : State,
    (s.phase = .body ∧ s.bcnt = 0 ∧ s.cfg.strict = false ∧ s.wcur < s.cfg.capacity) ∧
    (t.phase = .body ∧ t.bcnt = 31 ∧ t.cfg.strict = false ∧ t.wcur < t.cfg.capacity) :=
  ⟨at_ cfg16 .body, lastByte cfg16 0, by decide⟩

theorem witness_FramesAdvanceCursor : ∃ s : State, s.phase = .hunt ∧ s.wcur = 0 ∧ s.cfg.strict = false :=
  ⟨at_ cfg5 .hunt, by decide⟩

/-- A halted capture whose next step is a wait, a command, a reset, or a word the port cannot carry. -/
theorem witness_RxFaultHaltsFramer :
    next (step { at_ cfg16 .halted with bcnt := 10, src := [1], sched := [.cycle 0 0] })
      (fun t => decide (t.phase = .halted)) = true ∧
    next (step { at_ cfg16 .halted with bcnt := 10, sched := [.cmd 0x04] }) (fun t => decide (t.phase = .halted)) = true ∧
    next (step { at_ cfg16 .halted with bcnt := 10, sched := [.cycle 1 0] }) (fun t => decide (t.phase = .idle)) = true ∧
    next (step { at_ cfg16 .halted with bcnt := 10, sched := [.cmd 0x80] }) (fun _ => true) = false := by decide

theorem witness_HaltedUntilReset : (at_ cfg16 .halted).phase = .halted ∧ Instr.start 0 ≠ .reset ∧ Instr.rxFault ≠ .reset := by
  decide

theorem witness_OnlyResetLeavesHalted :
    next (step { at_ cfg16 .halted with sched := [.cycle 1 1] }) (fun t => decide (t.phase = .idle)) = true ∧
    next (step { at_ cfg16 .halted with sched := [.cycle 0 1] }) (fun t => decide (t.phase = .halted)) = true := by decide

theorem witness_CommandsAfterReset :
    next (exec .reset (at_ cfg16 .halted)) (fun t => decide ((15 : SlotIdx).toNat < t.cfg.capacity)) = true := by decide

/-- Steps from states that meet the invariants. -/
theorem witness_StepKeepsInvariant :
    ({ at_ cfg16 .hunt with mpos := 3, src := [0x08], sched := [.cycle 0 0] }.Inv ∧
      next (step { at_ cfg16 .hunt with mpos := 3, src := [0x08], sched := [.cycle 0 0] })
        (fun t => decide (t.phase = .body)) = true) ∧
    ({ lastByte cfg16 0xA000 with src := [0], sched := [.cycle 0 0] }.Inv ∧
      next (step { lastByte cfg16 0xA000 with src := [0], sched := [.cycle 0 0] }) (fun t => decide (t.wcur = 8)) = true) :=
  ⟨⟨⟨by decide, by decide, by decide, by decide, by decide⟩, by decide⟩,
    ⟨by decide, by decide, by decide, by decide, by decide⟩, by decide⟩

theorem witness_NothingFaultsUnderInvariant : ∃ s : State, s.Inv := ⟨_, inv_lastByte⟩

/-- A commit of a smaller start angle sets the flag; `SNAP` and a reset clear it. -/
theorem witness_FlagHasOneSetterAndOneClearer :
    ({ lastByte cfg16 0xA000 with prevStart := 0xA001 }.rotc = false ∧
      next (exec (.byteBody 0) { lastByte cfg16 0xA000 with prevStart := 0xA001 }) (fun t => t.rotc) = true) ∧
    next (exec (.snap 0) { State.reset with rotc := true }) (fun t => !t.rotc) = true ∧
    next (exec .reset { State.reset with rotc := true }) (fun t => !t.rotc) = true := by decide

theorem witness_SnapshotIsStableBetweenSnaps :
    next (exec (.byteBody 0) { lastByte cfg16 0xA000 with snap := [(0, ⟨1, 2, 3⟩)] })
      (fun t => decide (t.snap = [(0, ⟨1, 2, 3⟩)] ∧ t.ring ≠ [])) = true ∧
    (∀ idx, Instr.byteBody 0 ≠ .snap idx) ∧ Instr.byteBody 0 ≠ .reset :=
  ⟨by decide, nofun, by decide⟩

theorem witness_OnlyCommitsWriteRingData :
    next (exec (.snap 0) { State.reset with ring := [(0, ⟨1, 2, 3⟩)] }) (fun _ => true) = true ∧
    (∀ b, Instr.snap 0 ≠ .byteBody b) ∧ (∀ f, Instr.snap 0 ≠ .frame f) ∧ Instr.snap 0 ≠ .reset :=
  ⟨by decide, nofun, nofun, by decide⟩

/-- A reset with other configuration inputs, and a command. -/
theorem witness_ConfigurationChangesOnlyAtReset :
    next (exec .reset { at_ cfg16 .hunt with cfgIn := cfg5 }) (fun t => decide (t.cfg = cfg5)) = true ∧
    next (exec (.snap 0) { at_ cfg16 .hunt with cfgIn := cfg5 }) (fun t => decide (t.cfg = cfg16)) = true := by decide

theorem witness_OperationsLeaveInputsAlone :
    next (exec (.byteHunt 0) { at_ cfg16 .hunt with src := [1], sched := [.frame] }) (fun _ => true) = true ∧
    Instr.agent (.byteHunt 0) ≠ .cons := by decide

/-- Two states of one triple that differ in all that is stored, both going on. -/
theorem witness_SequencingIgnoresStoredData : ∃ s t : State, s.triple = t.triple ∧ s.ring ≠ t.ring ∧ s.rotc ≠ t.rotc ∧
    next (exec (.byteBody 0) s) (fun _ => true) = true ∧ next (exec (.byteBody 0) t) (fun _ => true) = true :=
  ⟨lastByte cfg16 0xA000, { lastByte cfg5 0xB000 with ring := [(0, ⟨1, 2, 3⟩)], rotc := true, prevStart := 7 }, by decide⟩

/-- Two states that differ in a stale byte, before a commit. -/
theorem witness_StaleBodyIsNeverObserved : ∃ s t : State, s ≠ t ∧ s.sameButStaleBody t ∧ s.sched = [.cycle 0 0] ∧ s.src = [0] :=
  ⟨{ lastByte cfg16 0xA000 with src := [0], sched := [.cycle 0 0] },
    { lastByte cfg16 0xA000 with src := [0], sched := [.cycle 0 0], bodyreg := (lastByte cfg16 0xA000).bodyreg.set 31 0xFF },
    by decide, ⟨rfl, by intro _; decide⟩, by decide, by decide⟩

theorem witness_ReadCommandsRepeatTheirAnswer :
    ∃ idx, Instr.rdsnap 480 = .ready idx ∨ Instr.rdsnap 480 = .rpm idx ∨ Instr.rdsnap 480 = .rdsnap idx :=
  ⟨480, .inr (.inr rfl)⟩

/-- V-F5 and V-F2, whose first byte `AA` and second `55` leave `MPOS` as it was; a byte of a body, and its last. -/
theorem witness_AcceptedByteChangesState :
    ((at_ cfg16 .hunt).phase = .hunt ∧ (at_ cfg16 .hunt).mpos = 0) ∧
    ({ at_ cfg16 .hunt with mpos := 1 }.phase = .hunt ∧ { at_ cfg16 .hunt with mpos := 1 }.mpos = 1) ∧
    next (exec (.byteHunt 0xAA) (at_ cfg16 .hunt)) (fun t => decide (t = at_ cfg16 .hunt)) = true ∧
    next (exec (.byteHunt 0x55) { at_ cfg16 .hunt with mpos := 1 }) (fun t => decide (t.mpos = 1)) = true ∧
    (at_ cfg16 .body).phase = .body ∧ (lastByte cfg16 0).phase = .body := by decide

end Sys2Proof.Tests
end

section
/-! The index width of R8 as a bound on powers of two, and the values of the state right after reset. -/

namespace Sys2Proof

/-- R8 read as a specification: the widths from `IDX_W` up are the nonzero ones at which an index reaches every slot. -/
theorem Config.idxW_le_iff (c : Config) (k : Nat) : c.idxW ≤ k ↔ 1 ≤ k ∧ c.capacity ≤ 2 ^ k := by
  rw [Config.idxW, max_le_iff, Nat.clog_le_iff_le_pow Nat.one_lt_two]

theorem Config.one_le_idxW (c : Config) : 1 ≤ c.idxW := ((c.idxW_le_iff _).1 le_rfl).1

theorem Config.capacity_le_two_pow_idxW (c : Config) : c.capacity ≤ 2 ^ c.idxW := ((c.idxW_le_iff _).1 le_rfl).2

/-- D10: the largest legal capacity is `2 ^ 16`. -/
theorem Config.idxW_le_sixteen (c : Config) : c.idxW ≤ 16 := (c.idxW_le_iff 16).2 ⟨by decide, c.legal.2⟩

/-- The quote of R8: 480 slots are more than `2 ^ 8` and at most `2 ^ 9`. -/
theorem Config.default_idxW : Config.default.idxW = 9 := by
  have reaches : Config.default.idxW ≤ 9 := (Config.default.idxW_le_iff 9).2 (by decide)
  have tooNarrow : ¬ Config.default.idxW ≤ 8 := mt (Config.default.idxW_le_iff 8).1 (by decide)
  omega

/-- Settles O7: each part is an instance of `Config.idxW_le_iff`. -/
theorem indexWidthIsLeast : Obligations.IndexWidthIsLeast := by
  refine ⟨Config.default_idxW, fun c => ⟨c.one_le_idxW, c.idxW_le_sixteen, c.capacity_le_two_pow_idxW, ?_⟩⟩
  intro k hpos hreach
  exact (c.idxW_le_iff k).2 ⟨hpos, hreach⟩

namespace Machine

theorem State.reset_triple : State.reset.triple = (.idle, 0, 0) := rfl

/-- R67 at reset: the phase is `IDLE`, which accepts no byte. -/
theorem State.reset_inReady : State.reset.inReady = false := rfl

theorem State.reset_ring_read (j : Nat) : State.reset.ring.read j = ⟨0, 0, 0⟩ := Memory.read_nil j

theorem State.reset_snap_read (j : Nat) : State.reset.snap.read j = ⟨0, 0, 0⟩ := Memory.read_nil j

/-- Settles O45: both stores are empty lists, whose every slot reads as unlisted; every other conjunct is a field of
`State.reset` or of `Config.default`. -/
theorem resetStateValues : Obligations.ResetStateValues :=
  ⟨State.reset_triple, State.reset_inReady, State.reset_ring_read, rfl, rfl, rfl, rfl, rfl, State.reset_snap_read,
    rfl, rfl, rfl⟩

end Machine

end Sys2Proof
end

section
/-! For each operation, once, every next state it can answer; and the facts that hold of all of them: what an accepted byte,
and so every operation of the FRAMER, keeps. -/

namespace Sys2Proof.Machine

/-! ### The packet's append and the body bytes -/

@[simp] theorem appendedPacket_phase (s : State) : (appendedPacket s).phase = s.phase := by simp [appendedPacket]
@[simp] theorem appendedPacket_mpos (s : State) : (appendedPacket s).mpos = s.mpos := by simp [appendedPacket]
@[simp] theorem appendedPacket_bcnt (s : State) : (appendedPacket s).bcnt = s.bcnt := by simp [appendedPacket]
@[simp] theorem appendedPacket_snap (s : State) : (appendedPacket s).snap = s.snap := by simp [appendedPacket]
@[simp] theorem appendedPacket_cfg (s : State) : (appendedPacket s).cfg = s.cfg := by simp [appendedPacket]
@[simp] theorem appendedPacket_rotc (s : State) :
    (appendedPacket s).rotc = rotcAfterCommit s.rotc (bodyFields s.bodyreg).rawStart s.prevStart := by
  simp [appendedPacket]

/-- R112: a commit never clears the flag. -/
@[simp] theorem rotcAfterCommit_true (rawStart prevStart : Half) : rotcAfterCommit true rawStart prevStart = true :=
  ite_self _

/-- The 32nd body byte captured, and the framer back in `HUNT`: what the commit's gate (R102) finds. -/
def bodyCompleted (b : Byte) (s : State) : State := returnToHunt (setBcnt 0 (storeBodyByte b s))

/-- A body byte is captured, or completes a packet that is dropped, or completes one that is appended (R90, R102). -/
theorem bodyByte_cases {b : Byte} {s t : State} (h : bodyByte b s = .next t) :
    t = setBcnt (s.bcnt + 1) (storeBodyByte b s) ∨
    t = bodyCompleted b s ∨
    (s.wcur < s.cfg.capacity ∧ t = appendedPacket (bodyCompleted b s)) := by
  rcases bodyByte_next h with ⟨-, rfl⟩ | ⟨-, hcommit⟩
  · exact .inl rfl
  · exact .inr (commit_next hcommit)

/-! ### What every accepted byte keeps -/

/-- R32: no byte writes the snapshot buffer. -/
theorem acceptByte_snap {b : Byte} {s t : State} (h : acceptByte b s = .next t) : t.snap = s.snap := by
  rcases acceptByte_next h with ⟨-, rfl⟩ | ⟨-, hbody⟩ | ⟨-, rfl⟩
  · simp
  · rcases bodyByte_cases hbody with rfl | rfl | ⟨-, rfl⟩ <;> simp [bodyCompleted]
  · rfl

/-- R34: no byte changes the configuration. -/
theorem acceptByte_cfg {b : Byte} {s t : State} (h : acceptByte b s = .next t) : t.cfg = s.cfg := by
  rcases acceptByte_next h with ⟨-, rfl⟩ | ⟨-, hbody⟩ | ⟨-, rfl⟩
  · simp
  · rcases bodyByte_cases hbody with rfl | rfl | ⟨-, rfl⟩ <;> simp [bodyCompleted]
  · rfl

/-- R28, R112: no byte clears the flag. -/
theorem acceptByte_rotc {b : Byte} {s t : State} (h : acceptByte b s = .next t) (hs : s.rotc = true) :
    t.rotc = true := by
  rcases acceptByte_next h with ⟨-, rfl⟩ | ⟨-, hbody⟩ | ⟨-, rfl⟩
  · simpa using hs
  · rcases bodyByte_cases hbody with rfl | rfl | ⟨-, rfl⟩ <;> simp [bodyCompleted, hs]
  · exact hs

/-! ### The byte operations by phase (R85) and by count (R86, R90) -/

theorem huntByte_of_complete {b : Byte} {s : State} (h : matchCount s.mpos b = 4) : huntByte b s = enterBody s :=
  if_pos h

theorem huntByte_of_incomplete {b : Byte} {s : State} (h : matchCount s.mpos b ≠ 4) :
    huntByte b s = setMatch (matchCount s.mpos b) s := by
  rcases huntByte_cases b s with ⟨hm, -⟩ | ⟨-, he⟩
  · exact absurd hm h
  · exact he

theorem bodyByte_of_last {s : State} (h : s.bcnt = 31) (b : Byte) :
    bodyByte b s = commit (setBcnt 0 (storeBodyByte b s)) := if_pos h

theorem bodyByte_of_not_last {s : State} (h : s.bcnt ≠ 31) (b : Byte) :
    bodyByte b s = .next (setBcnt (s.bcnt + 1) (storeBodyByte b s)) := if_neg h

theorem acceptByte_hunt {s : State} (hp : s.phase = .hunt) (b : Byte) : acceptByte b s = .next (huntByte b s) := by
  simp only [acceptByte, hp]

theorem acceptByte_body {s : State} (hp : s.phase = .body) (b : Byte) : acceptByte b s = bodyByte b s := by
  simp only [acceptByte, hp]

theorem acceptByte_waits {s : State} (hp : s.phase = .idle ∨ s.phase = .halted) (b : Byte) :
    acceptByte b s = .next s := by
  rcases hp with hp | hp <;> simp only [acceptByte, hp]

/-- BYTE_HUNT is the acceptance of its byte where the phase selects it (R85), and else no step (log 10). -/
theorem exec_byteHunt_eq (b : Byte) (s : State) :
    exec (.byteHunt b) s = if s.phase = .hunt then acceptByte b s else .next s :=
  ite_congr rfl (fun hp => (acceptByte_hunt hp b).symm) fun _ => rfl

/-- BYTE_BODY is the acceptance of its byte where the phase selects it (R85), and else no step (log 10). -/
theorem exec_byteBody_eq (b : Byte) (s : State) :
    exec (.byteBody b) s = if s.phase = .body then acceptByte b s else .next s :=
  ite_congr rfl (fun hp => (acceptByte_body hp b).symm) fun _ => rfl

/-! ### What each operation can answer -/

/-- The next states an operation can answer; the status and data of a command are in its `exec_` equation. -/
inductive Effect (s : State) : Instr → State → Prop
  /-- A command that only answers (R121, R123, R124, R126). -/
  | answered (i : Instr) (st : Status) (d : DataWord) (hi : i.agent = .cons) : Effect s i (respond st d s)
  /-- SNAP (R122). -/
  | snapped (idx : SlotIdx) : Effect s (.snap idx) (respond .ok 0 (takeSnapshot s))
  /-- START (R125). -/
  | started (idx : SlotIdx) : Effect s (.start idx) (respond .ok 0 (startFramer s))
  /-- BYTE_HUNT or BYTE_BODY where it is not enabled (log 10). -/
  | disabled (i : Instr) (hi : i.agent = .prod) : Effect s i s
  /-- BYTE_HUNT in `HUNT` (R86). -/
  | searched (b : Byte) (hp : s.phase = .hunt) : Effect s (.byteHunt b) (huntByte b s)
  /-- BYTE_BODY in `BODY` (R90). -/
  | captured (b : Byte) (t : State) (hp : s.phase = .body) (h : bodyByte b s = .next t) : Effect s (.byteBody b) t
  /-- FRAME (R78). -/
  | framed (f : Fields) (t : State) (h : acceptBytes (frameLine f) s = .next t) : Effect s (.frame f) t
  /-- RESET (R160). -/
  | wasReset : Effect s .reset (resetBlock s)
  /-- RX_FAULT (R141). -/
  | halted : Effect s .rxFault (takeException .serialFailure s)

theorem exec_effect {i : Instr} {s t : State} (h : exec i s = .next t) : Effect s i t := by
  cases i with
  | ready idx => cases h; exact .answered _ _ _ rfl
  | snap idx => cases h; exact .snapped idx
  | rdsnap idx =>
    rcases exec_rdsnap_cases idx s with ⟨-, he⟩ | ⟨-, he⟩ <;> cases he.symm.trans h <;> exact .answered _ _ _ rfl
  | rpm idx => cases h; exact .answered _ _ _ rfl
  | start idx => cases h; exact .started idx
  | rsv5 idx => cases h; exact .answered _ _ _ rfl
  | rsv6 idx => cases h; exact .answered _ _ _ rfl
  | rsv7 idx => cases h; exact .answered _ _ _ rfl
  | byteHunt b =>
    rcases exec_byteHunt_next h with ⟨hp, rfl⟩ | ⟨-, rfl⟩
    · exact .searched b hp
    · exact .disabled _ rfl
  | byteBody b =>
    rcases exec_byteBody_next h with ⟨hp, hb⟩ | ⟨-, rfl⟩
    · exact .captured b t hp hb
    · exact .disabled _ rfl
  | frame f => exact .framed f t (exec_frame f s ▸ h)
  | reset => cases h; exact .wasReset
  | rxFault => cases h; exact .halted

/-- What every accepted byte keeps, every operation of the FRAMER keeps. -/
theorem exec_prod_induction {P : State → Prop} (hP : ∀ b s t, acceptByte b s = .next t → P s → P t)
    {i : Instr} {s t : State} (hi : i.agent = .prod) (h : exec i s = .next t) (hs : P s) : P t := by
  cases exec_effect h with
  | disabled => exact hs
  | searched b hp => exact hP b s _ (acceptByte_hunt hp b) hs
  | captured b t hp hb => exact hP b s t ((acceptByte_body hp b).trans hb) hs
  | framed f t hf => exact acceptBytes_induction hP hf hs
  | answered i st d hc => rw [hc] at hi; cases hi
  | snapped | started | wasReset | halted => cases hi

end Sys2Proof.Machine
end

section
/-! The invariants of R35: they hold at reset, and every step keeps them. -/

namespace Sys2Proof.Machine

/-! ### The angles of a packet are in the bounds of R35 (d) -/

/-- R103: the bounds of the start and of the end of a sweep; the end is at most 47614, where `rawStart` is 65535 and
`rawEnd` one less. -/
theorem sweep_bounds (f : Fields) :
    -40960 ≤ startUnits f ∧ startUnits f ≤ 24575 ∧ -40960 ≤ endUnits f ∧ endUnits f ≤ 47614 := by
  have := f.rawStart.isLt
  have := f.rawEnd.isLt
  simp only [startUnits, endUnits, Config.angleOffset, Config.wrapAdd, Config.angleDiv]
  split <;> omega

/-- R108: `a_i` is the mean of the sweep's ends, weighted `8 - i` and `i`. -/
theorem sampleAngle_bounds (f : Fields) {i : Nat} (hi : i < 8) :
    -327680 ≤ sampleAngle f i ∧ sampleAngle f i ≤ 357873 := by
  obtain ⟨hSlo, hShi, hElo, hEhi⟩ := sweep_bounds f
  have weighted : sampleAngle f i = (8 - i) * startUnits f + i * endUnits f := by
    rw [sampleAngle, sweepUnits]; ring
  have hw : (0 : Int) ≤ 8 - i := by omega
  have hi' : (0 : Int) ≤ i := by omega
  have := mul_le_mul_of_nonneg_left hSlo hw
  have := mul_le_mul_of_nonneg_left hShi hw
  have := mul_le_mul_of_nonneg_left hElo hi'
  have := mul_le_mul_of_nonneg_left hEhi hi'
  omega

theorem storedAngle_bounds (mirrored : Bool) (f : Fields) {i : Nat} (hi : i < 8) :
    -357873 ≤ storedAngle mirrored f i ∧ storedAngle mirrored f i ≤ 357873 := by
  have := sampleAngle_bounds f hi
  unfold storedAngle
  split <;> omega

/-- R108: the narrowing to 21 bits loses nothing. -/
theorem packetSample_angle (mirrored : Bool) (f : Fields) (i : Fin 8) :
    (packetSample mirrored f i).angle.toInt = storedAngle mirrored f i := by
  have := storedAngle_bounds mirrored f i.isLt
  rw [packetSample, BitVec.toInt_ofInt]
  exact Int.bmod_eq_of_le (by omega) (by omega)

theorem packetSamples_bounds (mirrored : Bool) (f : Fields) :
    ∀ x ∈ packetSamples mirrored f, -357873 ≤ x.angle.toInt ∧ x.angle.toInt ≤ 357873 := by
  intro x hx
  obtain ⟨i, -, rfl⟩ := List.mem_map.1 hx
  rw [packetSample_angle]
  exact storedAngle_bounds mirrored f i.isLt

/-! ### The stores stay sound -/

theorem Memory.sound_iff (n : Nat) (m : Memory) :
    m.sound n = true ↔ m.wf = true ∧ m.below n = true ∧ m.anglesBounded = true := by
  simp only [Memory.sound, Bool.and_eq_true, and_assoc]

theorem Memory.sound_copyBelow {m : Memory} {n : Nat} (h : m.sound n = true) : (m.copyBelow n).sound n = true := by
  obtain ⟨hwf, -, hangle⟩ := (Memory.sound_iff n m).1 h
  exact (Memory.sound_iff _ _).2
    ⟨Memory.wf_copyBelow hwf n, Memory.below_copyBelow m n, Memory.anglesBounded_copyBelow hangle n⟩

theorem appendSamples_ring_sound {s : State} (hw : s.wcur < s.cfg.capacity)
    (h : s.ring.sound s.cfg.capacity = true) (xs : List Sample)
    (hx : ∀ x ∈ xs, -357873 ≤ x.angle.toInt ∧ x.angle.toInt ≤ 357873) :
    (appendSamples xs s).ring.sound s.cfg.capacity = true := by
  obtain ⟨hwf, hbelow, hangle⟩ := (Memory.sound_iff _ _).1 h
  exact (Memory.sound_iff _ _).2 ⟨appendSamples_ring_wf hwf xs, appendSamples_ring_below hw hbelow xs,
    appendSamples_ring_anglesBounded hangle xs hx⟩

/-! ### Each update keeps the invariants -/

/-- A block with an empty ring at slot 0, an empty snapshot and nothing matched or captured meets the invariants. -/
theorem State.Inv.of_cleared {s : State} (hm : s.mpos = 0) (hb : s.bcnt = 0) (hw : s.wcur = 0) (hr : s.ring = [])
    (hs : s.snap = []) : s.Inv where
  wcur_lt := hw ▸ s.cfg.legal.1
  bcnt_zero _ := hb
  mpos_zero _ := hm
  ring_sound := hr ▸ Memory.sound_nil _
  snap_sound := hs ▸ Memory.sound_nil _

/-- Settles O47: R160 clears what the invariants speak of. -/
theorem resetMeetsInvariant : Obligations.ResetMeetsInvariant :=
  State.Inv.of_cleared rfl rfl rfl rfl rfl

theorem State.Inv.resetBlock (s : State) : (resetBlock s).Inv :=
  State.Inv.of_cleared rfl rfl rfl rfl rfl

theorem State.Inv.respond {s : State} (h : s.Inv) (st : Status) (d : DataWord) : (respond st d s).Inv :=
  ⟨h.wcur_lt, h.bcnt_zero, h.mpos_zero, h.ring_sound, h.snap_sound⟩

theorem State.Inv.takeSnapshot {s : State} (h : s.Inv) : (takeSnapshot s).Inv :=
  ⟨h.wcur_lt, h.bcnt_zero, h.mpos_zero, h.ring_sound, Memory.sound_copyBelow h.ring_sound⟩

theorem State.Inv.startFramer {s : State} (h : s.Inv) : (startFramer s).Inv := by
  unfold Machine.startFramer
  split
  · exact ⟨h.wcur_lt, fun _ => h.bcnt_zero (.inl ‹_›), nofun, h.ring_sound, h.snap_sound⟩
  · exact h

theorem State.Inv.halt {s : State} (h : s.Inv) : (takeException .serialFailure s).Inv :=
  ⟨h.wcur_lt, nofun, nofun, h.ring_sound, h.snap_sound⟩

theorem State.Inv.huntByte {s : State} (h : s.Inv) (hp : s.phase = .hunt) (b : Byte) : (huntByte b s).Inv := by
  rcases huntByte_cases b s with ⟨-, he⟩ | ⟨-, he⟩ <;> rw [he]
  · exact ⟨h.wcur_lt, fun _ => rfl, fun _ => rfl, h.ring_sound, h.snap_sound⟩
  · exact ⟨h.wcur_lt, h.bcnt_zero, by simp [hp], h.ring_sound, h.snap_sound⟩

theorem State.Inv.bodyCompleted {s : State} (h : s.Inv) (b : Byte) : (bodyCompleted b s).Inv :=
  ⟨h.wcur_lt, fun _ => rfl, fun _ => rfl, h.ring_sound, h.snap_sound⟩

/-- R109: eight samples of bounded angles go to slots that exist, and the cursor stays one of them. -/
theorem State.Inv.appendedPacket {s : State} (h : s.Inv) : (appendedPacket s).Inv where
  wcur_lt := by
    simpa [Machine.appendedPacket] using
      appendSamples_wcur_lt h.wcur_lt (packetSamples s.cfg.mirrored (bodyFields s.bodyreg))
  bcnt_zero := by simpa using h.bcnt_zero
  mpos_zero := by simpa using h.mpos_zero
  ring_sound := by
    simpa [Machine.appendedPacket] using
      appendSamples_ring_sound h.wcur_lt h.ring_sound _ (packetSamples_bounds s.cfg.mirrored (bodyFields s.bodyreg))
  snap_sound := by simpa using h.snap_sound

theorem State.Inv.bodyByte {b : Byte} {s t : State} (h : s.Inv) (hp : s.phase = .body)
    (hb : bodyByte b s = .next t) : t.Inv := by
  rcases bodyByte_cases hb with rfl | rfl | ⟨-, rfl⟩
  · exact ⟨h.wcur_lt, by simp [hp], h.mpos_zero, h.ring_sound, h.snap_sound⟩
  · exact h.bodyCompleted b
  · exact (h.bodyCompleted b).appendedPacket

theorem State.Inv.acceptByte {b : Byte} {s t : State} (hb : acceptByte b s = .next t) (h : s.Inv) : t.Inv := by
  rcases acceptByte_next hb with ⟨hp, rfl⟩ | ⟨hp, hbody⟩ | ⟨-, rfl⟩
  · exact h.huntByte hp b
  · exact h.bodyByte hp hbody
  · exact h

/-! ### Every operation and every step keeps the invariants -/

theorem exec_keeps_inv {i : Instr} {s t : State} (hi : exec i s = .next t) (h : s.Inv) : t.Inv := by
  cases exec_effect hi with
  | answered i st d => exact h.respond st d
  | snapped => exact h.takeSnapshot.respond _ _
  | started => exact h.startFramer.respond _ _
  | disabled => exact h
  | searched b hp => exact h.huntByte hp b
  | captured b t hp hb => exact h.bodyByte hp hb
  | framed f t hf => exact acceptBytes_induction (fun _ _ _ hb => State.Inv.acceptByte hb) hf h
  | wasReset => exact State.Inv.resetBlock s
  | halted => exact h.halt

theorem fetch_keeps_inv {s : State} (h : s.Inv) : (fetch s).2.Inv := by
  rw [fetch_frame]
  exact ⟨h.wcur_lt, h.bcnt_zero, h.mpos_zero, h.ring_sound, h.snap_sound⟩

/-- Settles O48: a step is a fetch, and then a wait or one operation; each keeps the invariants. -/
theorem stepKeepsInvariant : Obligations.StepKeepsInvariant := by
  intro s t h hstep
  rcases step_next hstep with ⟨-, rfl⟩ | ⟨w, i, -, -, hi⟩
  · exact fetch_keeps_inv h
  · exact exec_keeps_inv hi (fetch_keeps_inv h)

end Sys2Proof.Machine
end

section
/-! Who writes the flag, the snapshot buffer and the registers of a commit (R28, R32, R33). -/

namespace Sys2Proof.Machine

/-- R112, R149: the flag falls at SNAP or a reset alone. -/
theorem exec_rotc_of_not_clearer {i : Instr} {s t : State} (h : exec i s = .next t) (hsnap : ∀ idx, i ≠ .snap idx)
    (hreset : i ≠ .reset) (hs : s.rotc = true) : t.rotc = true := by
  have bytes : i.agent = .prod → t.rotc = true := fun hi =>
    exec_prod_induction (P := fun u => u.rotc = true) (fun _ _ _ => acceptByte_rotc) hi h hs
  cases exec_effect h with
  | snapped idx => exact absurd rfl (hsnap idx)
  | wasReset => exact absurd rfl hreset
  | captured | framed => exact bytes rfl
  | answered | disabled => exact hs
  | started | searched | halted => simpa using hs

/-- R111, R149: the flag rises at a body byte or a frame alone. -/
theorem exec_rotc_of_not_setter {i : Instr} {s t : State} (h : exec i s = .next t) (hbody : ∀ b, i ≠ .byteBody b)
    (hframe : ∀ f, i ≠ .frame f) (hs : s.rotc = false) : t.rotc = false := by
  cases exec_effect h with
  | captured b => exact absurd rfl (hbody b)
  | framed f => exact absurd rfl (hframe f)
  | answered | disabled => exact hs
  | snapped | wasReset => rfl
  | started | searched | halted => simpa using hs

/-- Settles O50: where the operation is not among those named, the flag cannot have risen, or cannot have fallen. -/
theorem flagHasOneSetterAndOneClearer : Obligations.FlagHasOneSetterAndOneClearer := by
  intro i s t h
  constructor
  · intro hs ht
    by_contra hother
    obtain ⟨hbody, hframe⟩ := not_or.1 hother
    have := exec_rotc_of_not_setter h (not_exists.1 hbody) (not_exists.1 hframe) hs
    simp [ht] at this
  · intro hs ht
    by_contra hother
    obtain ⟨hsnap, hreset⟩ := not_or.1 hother
    have := exec_rotc_of_not_clearer h (not_exists.1 hsnap) hreset hs
    simp [ht] at this

/-- R32, R34: only SNAP and a reset write the snapshot buffer, and only a reset changes the configuration. -/
theorem exec_snap_cfg_of_ne {i : Instr} {s t : State} (h : exec i s = .next t) (hsnap : ∀ idx, i ≠ .snap idx)
    (hreset : i ≠ .reset) : t.snap = s.snap ∧ t.cfg = s.cfg := by
  have bytes : i.agent = .prod → t.snap = s.snap ∧ t.cfg = s.cfg := fun hi =>
    exec_prod_induction (P := fun u => u.snap = s.snap ∧ u.cfg = s.cfg)
      (fun _ _ _ hb ⟨hsn, hcf⟩ => ⟨(acceptByte_snap hb).trans hsn, (acceptByte_cfg hb).trans hcf⟩) hi h ⟨rfl, rfl⟩
  cases exec_effect h with
  | snapped idx => exact absurd rfl (hsnap idx)
  | wasReset => exact absurd rfl hreset
  | searched | captured | framed => exact bytes rfl
  | answered | disabled => exact ⟨rfl, rfl⟩
  | started | halted => simp

/-- RDSNAP's answer is read from the snapshot buffer and the capacity alone (R123). -/
theorem exec_rdsnap_resp_congr {s t : State} (hsnap : t.snap = s.snap) (hcfg : t.cfg = s.cfg) (idx : SlotIdx) :
    ∃ u v, exec (.rdsnap idx) s = .next u ∧ exec (.rdsnap idx) t = .next v ∧ u.resp = v.resp := by
  rcases exec_rdsnap_cases idx s with ⟨hs, es⟩ | ⟨hs, es⟩ <;>
    rcases exec_rdsnap_cases idx t with ⟨ht, et⟩ | ⟨ht, et⟩
  · exact ⟨_, _, es, et, by simp [hsnap]⟩
  · rw [hcfg] at ht; omega
  · rw [hcfg] at ht; omega
  · exact ⟨_, _, es, et, by simp⟩

/-- Settles O51: the operation keeps the two elements RDSNAP reads. -/
theorem snapshotIsStableBetweenSnaps : Obligations.SnapshotIsStableBetweenSnaps := by
  intro i s t h hsnap hreset
  obtain ⟨keepsSnap, keepsCfg⟩ := exec_snap_cfg_of_ne h hsnap hreset
  exact ⟨keepsSnap, exec_rdsnap_resp_congr keepsSnap keepsCfg⟩

/-- Settles O52: of the operations left, the commands write the response port, SNAP's or START's own elements, a byte of
the search the sequencing triple, and RX_FAULT the phase. -/
theorem onlyCommitsWriteRingData : Obligations.OnlyCommitsWriteRingData := by
  intro i s t h hbody hframe hreset
  cases exec_effect h with
  | captured b => exact absurd rfl (hbody b)
  | framed f => exact absurd rfl (hframe f)
  | wasReset => exact absurd rfl hreset
  | answered | disabled => exact ⟨rfl, rfl, rfl, rfl, rfl⟩
  | snapped | started | searched | halted => simp

end Sys2Proof.Machine
end

section
/-! Noninterference of the stale bytes of `BODYREG` (R25, D26, I12): each operation is run from two states that differ in
them alone. -/

namespace Sys2Proof.Machine

/-- The state with another `BODYREG`. -/
def State.withBody (v : Vector Byte 32) (s : State) : State := { s with bodyreg := v }

@[simp] theorem State.withBody_phase (v : Vector Byte 32) (s : State) : (s.withBody v).phase = s.phase := rfl
@[simp] theorem State.withBody_cfg (v : Vector Byte 32) (s : State) : (s.withBody v).cfg = s.cfg := rfl
@[simp] theorem State.withBody_src (v : Vector Byte 32) (s : State) : (s.withBody v).src = s.src := rfl
@[simp] theorem State.withBody_sched (v : Vector Byte 32) (s : State) : (s.withBody v).sched = s.sched := rfl
@[simp] theorem State.withBody_inReady (v : Vector Byte 32) (s : State) : (s.withBody v).inReady = s.inReady := rfl

/-- The bytes of `BODYREG` the packet being captured has written are those of `v`. -/
def State.capturedAre (v : Vector Byte 32) (s : State) : Prop :=
  s.phase = .body → ∀ k : Fin 32, k < s.bcnt → s.bodyreg[k] = v[k]

theorem State.sameButStaleBody_iff {s t : State} :
    s.sameButStaleBody t ↔ ∃ v, t = s.withBody v ∧ s.capturedAre v := by
  constructor
  · rintro ⟨ht, hk⟩
    exact ⟨t.bodyreg, ht.symm, hk⟩
  · rintro ⟨v, rfl, hk⟩
    exact ⟨rfl, hk⟩

theorem State.sameButStaleBody.refl (s : State) : s.sameButStaleBody s := ⟨rfl, fun _ _ _ => rfl⟩

theorem State.sameButStaleBody_withBody {s : State} {v : Vector Byte 32} (h : s.capturedAre v) :
    s.sameButStaleBody (s.withBody v) := State.sameButStaleBody_iff.2 ⟨v, rfl, h⟩

/-! ### Outcomes that agree up to stale bytes -/

/-- Two outcomes are next states that differ in stale bytes alone, or are the same fault or refusal. -/
def SameOutcome (o p : Out) : Prop :=
  match o with
  | .next s => ∃ t, p = .next t ∧ s.sameButStaleBody t
  | .fault r => p = .fault r
  | .refused r => p = .refused r

theorem SameOutcome.refl (o : Out) : SameOutcome o o := by
  cases o with
  | next s => exact ⟨s, rfl, .refl s⟩
  | fault r => rfl
  | refused r => rfl

theorem SameOutcome.next {s t : State} (h : s.sameButStaleBody t) : SameOutcome (.next s) (.next t) := ⟨t, rfl, h⟩

/-! ### The updates do not read `BODYREG` -/

theorem startFramer_withBody (v : Vector Byte 32) (s : State) :
    startFramer (s.withBody v) = (startFramer s).withBody v :=
  (apply_ite (State.withBody v) (s.phase = .idle) { s with phase := .hunt } s).symm

theorem huntByte_withBody (b : Byte) (v : Vector Byte 32) (s : State) :
    huntByte b (s.withBody v) = (huntByte b s).withBody v := by
  by_cases hm : matchCount s.mpos b = 4
  · rw [huntByte_of_complete hm, huntByte_of_complete (s := s.withBody v) hm]; rfl
  · rw [huntByte_of_incomplete hm, huntByte_of_incomplete (s := s.withBody v) hm]; rfl

theorem fetchByte_withBody (v : Vector Byte 32) (s : State) :
    fetchByte (s.withBody v) = ((fetchByte s).1, (fetchByte s).2.withBody v) := by
  simp only [fetchByte, State.withBody_inReady, State.withBody_src]
  cases s.inReady <;> cases s.src <;> rfl

theorem fetchFrame_of_line {s : State} (h : (s.inReady && isFrameLine (s.src.take Config.frameLen)) = true) :
    fetchFrame s = (some (.frame (s.src.take Config.frameLen)), { s with src := s.src.drop Config.frameLen }) :=
  if_pos h

theorem fetchFrame_of_not_line {s : State} (h : ¬ (s.inReady && isFrameLine (s.src.take Config.frameLen)) = true) :
    fetchFrame s = fetchByte s := if_neg h

theorem fetchTurn_withBody (turn : Turn) (v : Vector Byte 32) (s : State) :
    fetchTurn turn (s.withBody v) = ((fetchTurn turn s).1, (fetchTurn turn s).2.withBody v) := by
  cases turn with
  | cmd w => rfl
  | cycle rst rxFault =>
    simp only [fetchTurn, fetchCycle]
    split
    · rfl
    · exact fetchByte_withBody v s
  | frame =>
    simp only [fetchTurn]
    by_cases hline : (s.inReady && isFrameLine (s.src.take Config.frameLen)) = true
    · rw [fetchFrame_of_line hline, fetchFrame_of_line (s := s.withBody v) hline]; rfl
    · rw [fetchFrame_of_not_line hline, fetchFrame_of_not_line (s := s.withBody v) hline]
      exact fetchByte_withBody v s

theorem fetch_withBody (v : Vector Byte 32) (s : State) :
    fetch (s.withBody v) = ((fetch s).1, (fetch s).2.withBody v) := by
  simp only [fetch, State.withBody_sched]
  cases s.sched with
  | nil => rfl
  | cons turn rest => exact fetchTurn_withBody turn v (beginStep rest s)

theorem fetch_capturedAre {v : Vector Byte 32} {s : State} (h : s.capturedAre v) : (fetch s).2.capturedAre v := by
  rw [fetch_frame]
  exact h

/-! ### Byte acceptance -/

theorem huntByte_capturedAre {v : Vector Byte 32} {s : State} (b : Byte) (hp : s.phase = .hunt) :
    (huntByte b s).capturedAre v := by
  rcases huntByte_cases b s with ⟨-, he⟩ | ⟨-, he⟩ <;> rw [he]
  · exact fun _ k hk => absurd hk (Nat.not_lt_zero k)
  · intro hbody
    simp [hp] at hbody

/-- Where the first `n` bytes agree, a store at byte `n` makes one more agree. -/
theorem agree_set {u v : Vector Byte 32} {n : Fin 32} (h : ∀ k : Fin 32, k < n → u[k] = v[k]) (b : Byte) :
    ∀ k : Fin 32, k ≤ n → (u.set n b)[k] = (v.set n b)[k] := by
  intro k hk
  by_cases hkn : k = n
  · subst hkn; simp
  · have : n.val ≠ k.val := fun hval => hkn (Fin.ext hval.symm)
    simpa [Vector.getElem_set, this] using h k (lt_of_le_of_ne hk hkn)

theorem storeBodyByte_withBody (b : Byte) (v : Vector Byte 32) (s : State) :
    storeBodyByte b (s.withBody v) = (storeBodyByte b s).withBody (v.set s.bcnt b) := rfl

/-- The 32nd byte leaves nothing stale, so the commit finds one state. -/
theorem storeBodyByte_last_withBody {v : Vector Byte 32} {s : State} (hp : s.phase = .body) (hb : s.bcnt = 31)
    (h : s.capturedAre v) (b : Byte) : storeBodyByte b (s.withBody v) = storeBodyByte b s := by
  have allAgree : s.bodyreg.set s.bcnt b = v.set s.bcnt b := by
    refine Vector.ext fun k hk => ?_
    exact agree_set (h hp) b ⟨k, hk⟩ (by rw [hb]; exact Fin.le_last (n := 31) _)
  rw [storeBodyByte_withBody, ← allAgree]
  rfl

theorem bodyByte_sameOutcome {v : Vector Byte 32} {s : State} (hp : s.phase = .body) (h : s.capturedAre v) (b : Byte) :
    SameOutcome (bodyByte b s) (bodyByte b (s.withBody v)) := by
  by_cases hb : s.bcnt = 31
  · rw [bodyByte_of_last hb, bodyByte_of_last (s := s.withBody v) hb, storeBodyByte_last_withBody hp hb h]
    exact .refl _
  · rw [bodyByte_of_not_last hb, bodyByte_of_not_last (s := s.withBody v) hb]
    refine .next (State.sameButStaleBody_withBody (v := v.set s.bcnt b) fun _ k hk => ?_)
    exact agree_set (h hp) b k (by simp only [setBcnt_bcnt] at hk; omega)

theorem acceptByte_sameOutcome {v : Vector Byte 32} {s : State} (h : s.capturedAre v) (b : Byte) :
    SameOutcome (acceptByte b s) (acceptByte b (s.withBody v)) := by
  have waits : s.phase = .idle ∨ s.phase = .halted →
      SameOutcome (acceptByte b s) (acceptByte b (s.withBody v)) := fun hp => by
    rw [acceptByte_waits hp, acceptByte_waits (s := s.withBody v) hp]
    exact .next (State.sameButStaleBody_withBody h)
  cases hp : s.phase with
  | hunt =>
    rw [acceptByte_hunt hp, acceptByte_hunt (s := s.withBody v) hp, huntByte_withBody]
    exact .next (State.sameButStaleBody_withBody (huntByte_capturedAre b hp))
  | body =>
    rw [acceptByte_body hp, acceptByte_body (s := s.withBody v) hp]
    exact bodyByte_sameOutcome hp h b
  | idle => exact waits (.inl hp)
  | halted => exact waits (.inr hp)

theorem acceptBytes_sameOutcome (bs : List Byte) {v : Vector Byte 32} {s : State} (h : s.capturedAre v) :
    SameOutcome (acceptBytes bs s) (acceptBytes bs (s.withBody v)) := by
  induction bs generalizing s v with
  | nil => exact .next (State.sameButStaleBody_withBody h)
  | cons b bs ih =>
    have first := acceptByte_sameOutcome h b
    cases hs : acceptByte b s with
    | next u =>
      rw [hs] at first
      obtain ⟨t, ht, hut⟩ := first
      obtain ⟨v', rfl, hv'⟩ := State.sameButStaleBody_iff.1 hut
      rw [acceptBytes_cons_of_next bs hs, acceptBytes_cons_of_next bs ht]
      exact ih hv'
    | fault r =>
      rw [hs] at first
      have ht : acceptByte b (s.withBody v) = .fault r := first
      simp only [acceptBytes, hs, ht]
      exact .refl _
    | refused r =>
      rw [hs] at first
      have ht : acceptByte b (s.withBody v) = .refused r := first
      simp only [acceptBytes, hs, ht]
      exact .refl _

/-! ### Operations and steps -/

theorem respond_sameOutcome {v : Vector Byte 32} {s : State} (h : s.capturedAre v) (st : Status) (d : DataWord) :
    SameOutcome (.next (respond st d s)) (.next (respond st d (s.withBody v))) :=
  .next (State.sameButStaleBody_withBody (s := respond st d s) h)

theorem startFramer_capturedAre {v : Vector Byte 32} {s : State} (h : s.capturedAre v) :
    (startFramer s).capturedAre v := by
  unfold startFramer
  split
  · exact nofun
  · exact h

theorem exec_sameOutcome (i : Instr) {v : Vector Byte 32} {s : State} (h : s.capturedAre v) :
    SameOutcome (exec i s) (exec i (s.withBody v)) := by
  have unchanged : SameOutcome (.next s) (.next (s.withBody v)) := .next (State.sameButStaleBody_withBody h)
  cases i with
  | ready | rpm | rsv5 | rsv6 | rsv7 => exact respond_sameOutcome h _ _
  | snap => exact respond_sameOutcome (s := takeSnapshot s) h _ _
  | rdsnap idx =>
    rcases exec_rdsnap_cases idx s with ⟨hs, es⟩ | ⟨hs, es⟩ <;>
      rcases exec_rdsnap_cases idx (s.withBody v) with ⟨ht, et⟩ | ⟨ht, et⟩
    · rw [es, et]; exact respond_sameOutcome h _ _
    · exact absurd hs (Nat.not_lt.2 ht)
    · exact absurd ht (Nat.not_lt.2 hs)
    · rw [es, et]; exact respond_sameOutcome h _ _
  | start idx =>
    rw [exec_start, exec_start, startFramer_withBody]
    exact respond_sameOutcome (startFramer_capturedAre h) _ _
  | byteHunt b =>
    rw [exec_byteHunt_eq, exec_byteHunt_eq, State.withBody_phase]
    split
    · exact acceptByte_sameOutcome h b
    · exact unchanged
  | byteBody b =>
    rw [exec_byteBody_eq, exec_byteBody_eq, State.withBody_phase]
    split
    · exact acceptByte_sameOutcome h b
    · exact unchanged
  | frame f =>
    rw [exec_frame, exec_frame]
    exact acceptBytes_sameOutcome _ h
  | reset => exact .refl (.next (resetBlock s))
  | rxFault =>
    exact .next (State.sameButStaleBody_withBody (s := takeException .serialFailure s) nofun)

theorem step_sameOutcome {v : Vector Byte 32} {s : State} (h : s.capturedAre v) :
    SameOutcome (step s) (step (s.withBody v)) := by
  have hf := fetch_capturedAre h
  simp only [step, fetch_withBody, State.withBody_cfg, State.withBody_phase]
  cases (fetch s).1 with
  | none => exact .next (State.sameButStaleBody_withBody hf)
  | some w =>
    dsimp only
    cases decode s.cfg s.phase w with
    | ok i => exact exec_sameOutcome i hf
    | error e => exact .refl _

/-- Settles O56: the fetch and every operation either do not read `BODYREG`, or read it when all 32 bytes are the
packet's own. -/
theorem staleBodyIsNeverObserved : Obligations.StaleBodyIsNeverObserved := by
  intro s t h
  obtain ⟨v, rfl, hv⟩ := State.sameButStaleBody_iff.1 h
  exact step_sameOutcome hv

end Sys2Proof.Machine
end

section
/-! The sequencing triple (R21) as a machine of its own: where each operation leads is a function of where the framer is,
and stored data is no argument of it (R59). -/

namespace Sys2Proof.Machine

/-- Where an accepted byte leads (R86, R89, R90, R92); in `IDLE` and `HALTED` no byte is accepted (R94). -/
def byteTriple (b : Byte) : Phase × Fin 4 × Fin 32 → Phase × Fin 4 × Fin 32
  | (.hunt, m, n) => if matchCount m b = 4 then (.body, 0, 0) else (.hunt, Fin.ofNat 4 (matchCount m b), n)
  | (.body, m, n) => if n = 31 then (.hunt, 0, 0) else (.body, m, n + 1)
  | (.idle, m, n) => (.idle, m, n)
  | (.halted, m, n) => (.halted, m, n)

/-- Where each operation leads. -/
def nextTriple (i : Instr) (c : Phase × Fin 4 × Fin 32) : Phase × Fin 4 × Fin 32 :=
  match i with
  | .ready _ | .snap _ | .rdsnap _ | .rpm _ | .rsv5 _ | .rsv6 _ | .rsv7 _ => c
  | .start _ => if c.1 = .idle then (.hunt, c.2) else c
  | .byteHunt b => if c.1 = .hunt then byteTriple b c else c
  | .byteBody b => if c.1 = .body then byteTriple b c else c
  | .frame f => (frameLine f).foldl (fun c b => byteTriple b c) c
  | .reset => (.idle, 0, 0)
  | .rxFault => (.halted, c.2)

theorem huntByte_triple {s : State} (hp : s.phase = .hunt) (b : Byte) :
    (huntByte b s).triple = byteTriple b s.triple := by
  by_cases hm : matchCount s.mpos b = 4
  · rw [huntByte_of_complete hm]
    simp [State.triple, byteTriple, hp, hm]
  · rw [huntByte_of_incomplete hm]
    simp [State.triple, byteTriple, hp, hm]

/-- The 32nd byte's commit leads back to `HUNT` whether the frame is dropped or appended (R92, R102). -/
theorem commit_triple {s t : State} (h : commit s = .next t) : t.triple = (.hunt, 0, s.bcnt) := by
  rcases commit_next h with rfl | ⟨-, rfl⟩ <;> simp [State.triple]

theorem bodyByte_triple {b : Byte} {s t : State} (hp : s.phase = .body) (h : bodyByte b s = .next t) :
    t.triple = byteTriple b s.triple := by
  rcases bodyByte_next h with ⟨hb, rfl⟩ | ⟨hb, hcommit⟩
  · simp [State.triple, byteTriple, hp, hb]
  · rw [commit_triple hcommit]
    simp [State.triple, byteTriple, hp, hb]

theorem acceptByte_triple {b : Byte} {s t : State} (h : acceptByte b s = .next t) :
    t.triple = byteTriple b s.triple := by
  rcases acceptByte_next h with ⟨hp, rfl⟩ | ⟨hp, hbody⟩ | ⟨hp | hp, rfl⟩
  · exact huntByte_triple hp b
  · exact bodyByte_triple hp hbody
  · simp [State.triple, byteTriple, hp]
  · simp [State.triple, byteTriple, hp]

theorem acceptBytes_triple {bs : List Byte} {s t : State} (h : acceptBytes bs s = .next t) :
    t.triple = bs.foldl (fun c b => byteTriple b c) s.triple := by
  induction bs generalizing s with
  | nil => cases h; rfl
  | cons b bs ih =>
    cases hb : acceptByte b s with
    | next u =>
      rw [acceptBytes_cons_of_next bs hb] at h
      rw [ih h, acceptByte_triple hb, List.foldl_cons]
    | fault r => simp [acceptBytes, hb] at h
    | refused r => simp [acceptBytes, hb] at h

theorem startFramer_triple (s : State) :
    (startFramer s).triple = if s.phase = .idle then (.hunt, s.mpos, s.bcnt) else s.triple :=
  apply_ite State.triple (s.phase = .idle) { s with phase := .hunt } s

theorem exec_triple {i : Instr} {s t : State} (h : exec i s = .next t) : t.triple = nextTriple i s.triple := by
  cases i with
  | ready | snap | rpm | rsv5 | rsv6 | rsv7 => cases h; rfl
  | rdsnap idx =>
    rcases exec_rdsnap_cases idx s with ⟨-, he⟩ | ⟨-, he⟩ <;> cases he.symm.trans h <;> rfl
  | start idx => cases h; exact startFramer_triple s
  | byteHunt b =>
    rcases exec_byteHunt_next h with ⟨hp, rfl⟩ | ⟨hp, rfl⟩
    · exact (huntByte_triple hp b).trans (if_pos hp).symm
    · exact (if_neg hp).symm
  | byteBody b =>
    rcases exec_byteBody_next h with ⟨hp, hbody⟩ | ⟨hp, rfl⟩
    · exact (bodyByte_triple hp hbody).trans (if_pos hp).symm
    · exact (if_neg hp).symm
  | frame f => exact acceptBytes_triple (exec_frame f s ▸ h)
  | reset => cases h; rfl
  | rxFault => cases h; rfl

/-- Settles O55: both next states are where `nextTriple` leads from the one triple. -/
theorem sequencingIgnoresStoredData : Obligations.SequencingIgnoresStoredData := by
  intro i s t s' t' hst hs ht
  calc s'.triple = nextTriple i s.triple := exec_triple hs
    _ = nextTriple i t.triple := by rw [hst]
    _ = t'.triple := (exec_triple ht).symm

end Sys2Proof.Machine
end

section
/-! What a turn presents, and that a step runs it (R53, R66, R78, R147). -/

namespace Sys2Proof.Machine

theorem step_of_fetch {s u : State} {w : PortWord} {i : Instr} (hf : fetch s = (some w, u))
    (hd : decode s.cfg s.phase w = .ok i) : step s = exec i u := by
  simp only [step, hf, hd]

theorem fetch_of_sched {s : State} {turn : Turn} {ts : List Turn} (h : s.sched = turn :: ts) :
    fetch s = fetchTurn turn (beginStep ts s) := by
  simp only [fetch, h]

/-- R67, R85: a byte names an operation only where `in_ready = 1`. -/
theorem inReady_of_decode_byte {c : Config} {s : State} {b : Byte} {i : Instr}
    (h : decode c s.phase (.byte b) = .ok i) : s.inReady = true := by
  cases hp : s.phase with
  | hunt | body => simp [State.inReady, phaseInReady, hp]
  | idle | halted => rw [hp] at h; cases h

/-- R63: a line names an operation only where it is a wire frame. -/
theorem isFrameLine_of_decode {c : Config} {ph : Phase} {line : List Byte} {i : Instr}
    (h : decode c ph (.frame line) = .ok i) : isFrameLine line = true := by
  change decodeFrame line = .ok i at h
  unfold decodeFrame at h
  split at h
  · cases h
  · split at h
    · cases h
    · rename_i hlen hmarker
      simp [isFrameLine, not_not.1 hlen, not_not.1 hmarker]

theorem length_of_isFrameLine {line : List Byte} (h : isFrameLine line = true) : line.length = Config.frameLen :=
  of_decide_eq_true (Bool.and_eq_true_iff.1 h).1

theorem fetchCycle_of_asserted {rst rxFault : Pin} (h : rst = 1 ∨ rxFault = 1) (s : State) :
    fetchCycle rst rxFault s = (some (.pins rst rxFault), s) := if_pos h

theorem fetchCycle_of_idle (s : State) : fetchCycle 0 0 s = fetchByte s := if_neg (by decide)

theorem fetchByte_of_ready {s : State} {b : Byte} {rest : List Byte} (hr : s.inReady = true) (hs : s.src = b :: rest) :
    fetchByte s = (some (.byte b), { s with src := rest }) := by
  simp only [fetchByte, hr, hs]

theorem fetchFrame_of_ready {s : State} {line rest : List Byte} (hr : s.inReady = true) (hs : s.src = line ++ rest)
    (hline : isFrameLine line = true) : fetchFrame s = (some (.frame line), { s with src := rest }) := by
  have hlen := length_of_isFrameLine hline
  have htake : s.src.take Config.frameLen = line := by rw [hs, List.take_left' hlen]
  have hdrop : s.src.drop Config.frameLen = rest := by rw [hs, List.drop_left' hlen]
  rw [fetchFrame_of_line (by rw [htake, hr, hline]; rfl), htake, hdrop]

/-- Settles O9: for each kind of turn, the fetch that presents its port word, then `step_of_fetch`. -/
theorem stepRunsDecodedOperation : Obligations.StepRunsDecodedOperation := by
  intro s ts i _
  refine ⟨fun w hsched hd => ?command, fun rst rxFault hsched hpins hd => ?pins,
    fun b rest hsched hsrc hd => ?byte, fun line rest hsched hready hsrc hd => ?frame⟩ <;>
    refine step_of_fetch ((fetch_of_sched hsched).trans ?_) hd
  case command => rfl
  case pins => exact fetchCycle_of_asserted hpins (beginStep ts s)
  case byte =>
    exact (fetchCycle_of_idle (beginStep ts s)).trans (fetchByte_of_ready (inReady_of_decode_byte hd) hsrc)
  case frame => exact fetchFrame_of_ready hready hsrc (isFrameLine_of_decode hd)

end Sys2Proof.Machine
end

section
/-! The CONSUMER's commands repeated with nothing between (R51). -/

namespace Sys2Proof.Machine

/-- SNAP reads `RING` and the capacity, which neither a SNAP nor an answer writes (R122). -/
theorem takeSnapshot_respond_takeSnapshot (st : Status) (d : DataWord) (s : State) :
    takeSnapshot (respond st d (takeSnapshot s)) = respond st d (takeSnapshot s) := rfl

theorem respond_respond (st st' : Status) (d d' : DataWord) (s : State) :
    respond st d (respond st' d' s) = respond st d s := rfl

/-- Settles O16: what the second SNAP reads, the first left as it was. -/
theorem snapIsIdempotent : Obligations.SnapIsIdempotent := by
  intro i j s
  refine ⟨_, exec_snap i s, ?_⟩
  rw [exec_snap, takeSnapshot_respond_takeSnapshot, respond_respond]

theorem exec_rdsnap_of_lt {idx : SlotIdx} {s : State} (h : idx.toNat < s.cfg.capacity) :
    exec (.rdsnap idx) s = .next (respond .ok (sampleData (s.snap.read idx.toNat)) s) := if_neg (Nat.not_le.2 h)

theorem exec_rdsnap_of_le {idx : SlotIdx} {s : State} (h : s.cfg.capacity ≤ idx.toNat) :
    exec (.rdsnap idx) s = .next (respond .errIndex 0 s) := if_pos h

/-- Settles O57: each of the three answers from elements that an answer leaves alone, so its equation holds again of the
state it answered. -/
theorem readCommandsRepeatTheirAnswer : Obligations.ReadCommandsRepeatTheirAnswer := by
  rintro i s ⟨idx, rfl | rfl | rfl⟩
  · exact ⟨_, exec_ready idx s, rfl, exec_ready idx (respond _ _ s)⟩
  · exact ⟨_, exec_rpm idx s, rfl, exec_rpm idx (respond _ _ s)⟩
  · rcases Nat.lt_or_ge idx.toNat s.cfg.capacity with hidx | hidx
    · exact ⟨_, exec_rdsnap_of_lt hidx, rfl, exec_rdsnap_of_lt (s := respond _ _ s) hidx⟩
    · exact ⟨_, exec_rdsnap_of_le hidx, rfl, exec_rdsnap_of_le (s := respond _ _ s) hidx⟩

end Sys2Proof.Machine
end

section
/-! The encodings one to one: a body and its fields (R64, R65), a wire frame and its body (R63), a command word and its
command (R71). -/

namespace Sys2Proof

/-! ### A body and its fields -/

/-- R64: the first byte is the less significant. -/
theorem u16le_toNat (body : Vector Byte 32) (k : Nat) (h : k + 1 < 32) :
    (u16le body k h).toNat = body[k].toNat + 256 * body[k + 1].toNat :=
  (append_toNat _ _).trans (Nat.add_comm _ _)

@[simp] theorem bodyBytes_length (f : Fields) : (bodyBytes f).length = 32 := by
  simp [bodyBytes, groupBytes]

/-- The body bytes of a packet, as `BODYREG` holds them. -/
def packetBody (f : Fields) : Vector Byte 32 := ⟨(bodyBytes f).toArray, bodyBytes_length f⟩

@[simp] theorem packetBody_toList (f : Fields) : (packetBody f).toList = bodyBytes f := rfl

theorem frameBytes_packetBody (f : Fields) : Machine.frameBytes (packetBody f) = frameLine f := rfl

/-- The group of sample `k` begins at body byte `4 + 3 * k` (R65). -/
theorem packetBody_group (f : Fields) (k : Fin 8) :
    (packetBody f)[4 + 3 * k.val] = loByte f.dist[k] ∧ (packetBody f)[5 + 3 * k.val] = hiByte f.dist[k] ∧
      (packetBody f)[6 + 3 * k.val] = f.inten[k] := by
  fin_cases k <;> exact ⟨rfl, rfl, rfl⟩

/-- What the fields of a body are read from, they are written to. -/
@[simp] theorem bodyFields_packetBody (f : Fields) : bodyFields (packetBody f) = f := by
  ext : 1
  case rawSpeed => exact hiByte_append_loByte f.rawSpeed
  case rawStart => exact hiByte_append_loByte f.rawStart
  case rawEnd => exact hiByte_append_loByte f.rawEnd
  case cks => exact hiByte_append_loByte f.cks
  case dist =>
    refine Vector.ext fun k hk => ?_
    obtain ⟨hlo, hhi, -⟩ := packetBody_group f ⟨k, hk⟩
    have hhi : (packetBody f)[4 + 3 * k + 1] = hiByte f.dist[k] := by simpa [Nat.add_right_comm] using hhi
    simp only [bodyFields, Vector.getElem_ofFn, u16le, hlo, hhi]
    exact hiByte_append_loByte _
  case inten =>
    refine Vector.ext fun k hk => ?_
    obtain ⟨-, -, hint⟩ := packetBody_group f ⟨k, hk⟩
    simpa [bodyFields] using hint

/-- The 32 bytes of a body are the bytes of its fields: no bit of a body is outside them. -/
@[simp] theorem bodyBytes_bodyFields (v : Vector Byte 32) : bodyBytes (bodyFields v) = v.toList := by
  calc bodyBytes (bodyFields v)
      = (List.finRange 32).map (v[·]) := by simp [bodyBytes, bodyFields, groupBytes, u16le, finRange_eight]; rfl
    _ = v.toList := List.ext_getElem (by simp) (by simp)

/-! ### A wire frame and its body -/

theorem frameLine_bodyFields (v : Vector Byte 32) : frameLine (bodyFields v) = Machine.frameBytes v := by
  rw [frameLine, bodyBytes_bodyFields, Machine.frameBytes]

@[simp] theorem lineBody_frameBytes (v : Vector Byte 32) : lineBody (Machine.frameBytes v) = v := by
  refine Vector.ext fun k hk => ?_
  have pastMarker : Config.marker.length ≤ 4 + k := Nat.le_add_right 4 k
  calc (lineBody (Machine.frameBytes v))[k]
      = (Config.marker ++ v.toList).getD (4 + k) 0 := by simp only [lineBody, Vector.getElem_ofFn, Machine.frameBytes]
    _ = v.toList.getD (4 + k - 4) 0 := List.getD_append_right _ _ _ _ pastMarker
    _ = v[k] := by simp [hk]

/-- R63: 36 bytes that begin with the marker are the marker and a body. -/
theorem frameBytes_lineBody {bs : List Byte} (h : isFrameLine bs = true) : Machine.frameBytes (lineBody bs) = bs := by
  obtain ⟨hlen, hmarker⟩ := Bool.and_eq_true_iff.1 h
  have hlen : bs.length = 36 := of_decide_eq_true hlen
  have hbody : (lineBody bs).toList = bs.drop 4 := by
    refine List.ext_getElem (by simp [hlen]) fun k _ hk => ?_
    have hk : 4 + k < bs.length := by rw [List.length_drop] at hk; omega
    simp [lineBody, hk]
  rw [Machine.frameBytes, ← of_decide_eq_true hmarker, hbody, List.take_append_drop]

theorem decode_frame_of_isFrameLine {bs : List Byte} (c : Config) (ph : Phase) (h : isFrameLine bs = true) :
    decode c ph (.frame bs) = .ok (.frame (bodyFields (lineBody bs))) := by
  obtain ⟨hlen, hmarker⟩ := Bool.and_eq_true_iff.1 h
  change decodeFrame bs = _
  rw [decodeFrame, if_neg (not_not.2 (of_decide_eq_true hlen)), if_neg (not_not.2 (of_decide_eq_true hmarker))]

theorem isFrameLine_iff (bs : List Byte) :
    isFrameLine bs = true ↔ bs.length = 36 ∧ bs.take 4 = [0x55, 0xAA, 0x03, 0x08] := by
  rw [isFrameLine, Bool.and_eq_true_iff, decide_eq_true_iff, decide_eq_true_iff]
  rfl

theorem isFrameLine_frameLine (f : Fields) : isFrameLine (frameLine f) = true := by
  simp [isFrameLine, Config.frameLen, Config.bodyLen, Config.marker]

theorem decode_frameLine (c : Config) (ph : Phase) (f : Fields) :
    decode c ph (.frame (frameLine f)) = .ok (.frame f) := by
  rw [decode_frame_of_isFrameLine c ph (isFrameLine_frameLine f), ← frameBytes_packetBody, lineBody_frameBytes,
    bodyFields_packetBody]

/-! ### A command word and its command -/

/-- R71: the eight operation codes, each with its command. -/
theorem commandOf_cases {P : BitVec 3 → Instr → Prop} (idx : SlotIdx) (ready : P 0b000 (.ready idx))
    (snap : P 0b001 (.snap idx)) (rdsnap : P 0b010 (.rdsnap idx)) (rpm : P 0b011 (.rpm idx))
    (start : P 0b100 (.start idx)) (rsv5 : P 0b101 (.rsv5 idx)) (rsv6 : P 0b110 (.rsv6 idx))
    (rsv7 : P 0b111 (.rsv7 idx)) (op : BitVec 3) : P op (commandOf op idx) := by
  have codes : ∀ op : BitVec 3, op = 0b000 ∨ op = 0b001 ∨ op = 0b010 ∨ op = 0b011 ∨ op = 0b100 ∨ op = 0b101 ∨
      op = 0b110 ∨ op = 0b111 := by decide
  rcases codes op with rfl | rfl | rfl | rfl | rfl | rfl | rfl | rfl
  · exact ready
  · exact snap
  · exact rdsnap
  · exact rpm
  · exact start
  · exact rsv5
  · exact rsv6
  · exact rsv7

theorem encode_commandOf (op : BitVec 3) (idx : SlotIdx) : encode (commandOf op idx) = .cmd (cmdWord op idx) :=
  commandOf_cases (P := fun op i => encode i = .cmd (cmdWord op idx)) idx rfl rfl rfl rfl rfl rfl rfl rfl op

theorem commandOf_agent (op : BitVec 3) (idx : SlotIdx) : (commandOf op idx).agent = .cons :=
  commandOf_cases (P := fun _ i => i.agent = .cons) idx rfl rfl rfl rfl rfl rfl rfl rfl op

theorem wellFormed_commandOf (c : Config) (ph : Phase) (op : BitVec 3) (idx : SlotIdx) :
    (commandOf op idx).wellFormed c ph = SlotIdx.fits c idx :=
  commandOf_cases (P := fun _ i => i.wellFormed c ph = SlotIdx.fits c idx) idx rfl rfl rfl rfl rfl rfl rfl rfl op

theorem SlotIdx.fits_iff (c : Config) (op : BitVec 3) (idx : SlotIdx) :
    SlotIdx.fits c idx = true ↔ (cmdWord op idx).toNat < 2 ^ (c.idxW + 3) := by
  rw [cmdWord_lt_iff, SlotIdx.fits, decide_eq_true_iff]

theorem SlotIdx.fits_default {idx : SlotIdx} (h : idx.toNat < 512) : SlotIdx.fits Config.default idx = true := by
  rw [SlotIdx.fits, Config.default_idxW]
  exact decide_eq_true h

theorem decode_cmdWord {c : Config} {idx : SlotIdx} (h : SlotIdx.fits c idx = true) (ph : Phase) (op : BitVec 3) :
    decode c ph (.cmd (cmdWord op idx)) = .ok (commandOf op idx) := by
  change decodeCmd c (cmdWord op idx) = _
  rw [decodeCmd, if_pos ((SlotIdx.fits_iff c op idx).1 h), cmdWord_op, cmdWord_idx]

theorem decode_cmd_of_not_lt {c : Config} {w : CmdWord} (h : ¬ w.toNat < 2 ^ (c.idxW + 3)) (ph : Phase) :
    decode c ph (.cmd w) = .error .commandTooWide := if_neg h

/-! ### The obligations -/

/-- Settles O1: a command by its two bit fields, a frame by its fields' bytes, a byte by the phase that selects it. -/
theorem decodeInvertsEncode : Obligations.DecodeInvertsEncode := by
  intro c ph i hwf
  cases i with
  | ready | snap | rdsnap | rpm | start | rsv5 | rsv6 | rsv7 => exact decode_cmdWord hwf ph _
  | byteHunt b | byteBody b => cases of_decide_eq_true hwf; rfl
  | frame f => exact decode_frameLine c ph f
  | reset | rxFault => rfl

/-- Settles O2: a word of the port is the `cmdWord` of its own two fields, and so of the command they name. -/
theorem commandWordsDecodeOneToOne : Obligations.CommandWordsDecodeOneToOne := by
  intro c ph w
  split_ifs with hw
  · obtain ⟨op, idx, rfl⟩ : ∃ op idx, cmdWord op idx = w := ⟨_, _, cmdWord_fields w⟩
    have fits := (SlotIdx.fits_iff c op idx).2 hw
    exact ⟨commandOf op idx, decode_cmdWord fits ph op, (wellFormed_commandOf c ph op idx).trans fits,
      commandOf_agent op idx, encode_commandOf op idx⟩
  · exact decode_cmd_of_not_lt hw ph

/-- Settles O3: the line's fields are those of its body; any fields with this line decode from it (O1), so they are the
same. -/
theorem frameLinesDecodeOneToOne : Obligations.FrameLinesDecodeOneToOne := by
  intro c ph bs
  split_ifs with hform
  · have hline := (isFrameLine_iff bs).2 hform
    have decodes := decode_frame_of_isFrameLine c ph hline
    refine ⟨bodyFields (lineBody bs), decodes, ?encodes, fun g hg => ?unique⟩
    case encodes => exact congrArg PortWord.frame ((frameLine_bodyFields _).trans (frameBytes_lineBody hline))
    case unique =>
      have := decodeInvertsEncode c ph (.frame g) rfl
      rw [hg, decodes] at this
      cases this
      rfl
  · exact fun i hi => hform ((isFrameLine_iff bs).1 (Machine.isFrameLine_of_decode hi))

/-- Settles O4: each 16-bit field is the `u16le` at its offset (R65). -/
theorem fieldsAreLittleEndian : Obligations.FieldsAreLittleEndian := by
  intro body
  refine ⟨u16le_toNat body 0 _, u16le_toNat body 2 _, fun k => ?dist, fun k => ?inten, u16le_toNat body 28 _,
    u16le_toNat body 30 _⟩
  case dist => simp [bodyFields, u16le_toNat, Nat.add_right_comm]
  case inten => simp [bodyFields]

/-- Settles O5: each word of R80 is the `cmdWord` of its code and an index of 9 bits. -/
theorem commandWordExamples : Obligations.CommandWordExamples := by
  intro ph
  have decodes (op : BitVec 3) (idx : SlotIdx) (h : idx.toNat < 512) := decode_cmdWord (SlotIdx.fits_default h) ph op
  exact ⟨decodes 0b000 0 (by decide), decodes 0b001 0 (by decide), decodes 0b010 5 (by decide),
    decodes 0b010 479 (by decide), decodes 0b010 480 (by decide), decodes 0b011 0 (by decide),
    decodes 0b100 0 (by decide), decodes 0b111 0 (by decide)⟩

/-- Settles O6: R81's bytes are a wire frame, whose fields are read from its body. -/
theorem frameExampleDecodes : Obligations.FrameExampleDecodes := fun c ph =>
  ⟨_, decode_frame_of_isFrameLine c ph (by decide), rfl, rfl, rfl, rfl, by decide⟩

end Sys2Proof
end

section
/-! The CONSUMER's commands: the fields of what each answers (R72 to R74), and what none of them writes (R149). -/

namespace Sys2Proof.Machine

/-! ### The sample in a response word (R74) -/

theorem respWord_angle (st : Status) (x : Sample) : (respWord st (sampleData x)).extractLsb' 24 21 = x.angle := by
  apply BitVec.eq_of_toNat_eq
  rw [BitVec.extractLsb'_toNat, respWord_toNat, sampleData_toNat, Nat.shiftRight_eq_div_pow]
  have := x.angle.isLt
  have := x.distance.isLt
  have := x.intensity.isLt
  omega

theorem respWord_distance (st : Status) (x : Sample) : (respWord st (sampleData x)).extractLsb' 8 16 = x.distance := by
  apply BitVec.eq_of_toNat_eq
  rw [BitVec.extractLsb'_toNat, respWord_toNat, sampleData_toNat, Nat.shiftRight_eq_div_pow]
  have := x.distance.isLt
  have := x.intensity.isLt
  omega

theorem respWord_intensity (st : Status) (x : Sample) : (respWord st (sampleData x)).extractLsb' 0 8 = x.intensity := by
  apply BitVec.eq_of_toNat_eq
  rw [BitVec.extractLsb'_toNat, respWord_toNat, sampleData_toNat, Nat.shiftRight_zero]
  have := x.intensity.isLt
  omega

/-! ### What every command does -/

/-- A command answers OK from a state that keeps all the FRAMER owns, or an error from the state as it stood. -/
theorem exec_cons_cases {i : Instr} (hi : i.agent = .cons) (s : State) :
    (∃ d u, exec i s = .next (respond .ok d u) ∧ u.framerData = s.framerData) ∨
    (∃ st, exec i s = .next (respond st 0 s)) := by
  cases i with
  | ready idx => exact .inl ⟨_, s, exec_ready idx s, rfl⟩
  | snap idx => exact .inl ⟨0, takeSnapshot s, exec_snap idx s, rfl⟩
  | rdsnap idx =>
    rcases exec_rdsnap_cases idx s with ⟨-, he⟩ | ⟨-, he⟩
    · exact .inl ⟨_, s, he, rfl⟩
    · exact .inr ⟨.errIndex, he⟩
  | rpm idx => exact .inl ⟨_, s, exec_rpm idx s, rfl⟩
  | start idx => exact .inl ⟨0, startFramer s, exec_start idx s, by simp [State.framerData]⟩
  | rsv5 idx => exact .inr ⟨.errOp, exec_rsv5 idx s⟩
  | rsv6 idx => exact .inr ⟨.errOp, exec_rsv6 idx s⟩
  | rsv7 idx => exact .inr ⟨.errOp, exec_rsv7 idx s⟩
  | byteHunt | byteBody | frame | reset | rxFault => cases hi

/-- Settles O22: the response port is no element the FRAMER owns, and an error is answered from the state as it stood. -/
theorem commandsCompleteAndKeepFramerData : Obligations.CommandsCompleteAndKeepFramerData := by
  intro i s hi
  rcases exec_cons_cases hi s with ⟨d, u, he, keeps⟩ | ⟨st, he⟩
  · exact ⟨_, _, he, rfl, keeps, fun herr => absurd (respStatus_respWord .ok d) herr⟩
  · exact ⟨_, _, he, rfl, rfl, fun _ => ⟨respData_respWord st 0, rfl⟩⟩

/-! ### Each command's answer -/

/-- Settles O17: the two cases of R123, each with the fields of its response word. -/
theorem rdsnapReadsOneSlot : Obligations.RdsnapReadsOneSlot := by
  intro idx s
  rcases Nat.lt_or_ge idx.toNat s.cfg.capacity with hidx | hidx
  · refine ⟨_, exec_rdsnap_of_lt hidx, ?_⟩
    rw [if_pos hidx]
    exact ⟨respStatus_respWord _ _, respWord_angle _ _, respWord_distance _ _, respWord_intensity _ _⟩
  · refine ⟨_, exec_rdsnap_of_le hidx, ?_⟩
    rw [if_neg (Nat.not_lt.2 hidx)]
    exact ⟨respStatus_respWord _ _, respData_respWord _ _⟩

theorem rotcData_eq (rotc : Bool) : rotcData rotc = if rotc then 1 else 0 := by
  cases rotc <;> rfl

/-- Settles O14: READY's answer is `rotcData` of the flag. -/
theorem readyAnswersFlag : Obligations.ReadyAnswersFlag := fun idx s =>
  ⟨_, exec_ready idx s, respStatus_respWord _ _, (respData_respWord _ _).trans (rotcData_eq s.rotc)⟩

/-- Settles O18: 16 bits fit the 45 of the data. -/
theorem rpmAnswersRawSpeed : Obligations.RpmAnswersRawSpeed := by
  intro idx s
  refine ⟨_, exec_rpm idx s, respStatus_respWord _ _, ?_⟩
  rw [respData_respWord, BitVec.toNat_setWidth_of_le (by decide)]

/-- Settles O21: RDSNAP's is the one `exec_` equation with the index on its right side. -/
theorem indexIsIgnoredElsewhere : Obligations.IndexIsIgnoredElsewhere := fun i j s =>
  ⟨(exec_ready i s).trans (exec_ready j s).symm, (exec_snap i s).trans (exec_snap j s).symm,
    (exec_rpm i s).trans (exec_rpm j s).symm, (exec_start i s).trans (exec_start j s).symm,
    (exec_rsv5 i s).trans (exec_rsv5 j s).symm, (exec_rsv6 i s).trans (exec_rsv6 j s).symm,
    (exec_rsv7 i s).trans (exec_rsv7 j s).symm⟩

end Sys2Proof.Machine
end

section
/-! The ports: the byte port's ready output (R67), and what no operation writes (R66, R69, R98). -/

namespace Sys2Proof.Machine

theorem State.inReady_iff (s : State) : s.inReady = true ↔ s.phase = .hunt ∨ s.phase = .body := by
  simp [State.inReady, phaseInReady]

/-- Settles O12: the ready output is a function of the phase, true at those two. -/
theorem readyOutputFollowsPhase : Obligations.ReadyOutputFollowsPhase := State.inReady_iff

/-- What stands at the ports: the bytes offered, the turns to come, the configuration inputs and the response. -/
def State.ports (s : State) : List Byte × List Turn × Config × Option RespWord := (s.src, s.sched, s.cfgIn, s.resp)

theorem State.ports_eq_iff {s t : State} :
    t.ports = s.ports ↔ t.src = s.src ∧ t.sched = s.sched ∧ t.cfgIn = s.cfgIn ∧ t.resp = s.resp := by
  simp [State.ports]

/-- The FRAMER's step for a byte is about a byte already taken from the source: it writes no port. -/
theorem acceptByte_ports {b : Byte} {s t : State} (h : acceptByte b s = .next t) : t.ports = s.ports := by
  rcases acceptByte_next h with ⟨-, rfl⟩ | ⟨-, hbody⟩ | ⟨-, rfl⟩
  · simp [State.ports]
  · rcases bodyByte_cases hbody with rfl | rfl | ⟨-, rfl⟩ <;> simp [State.ports, bodyCompleted, appendedPacket]
  · rfl

/-- R70: only a command answers. -/
theorem exec_ports_of_ne_cons {i : Instr} {s t : State} (h : exec i s = .next t) (hi : i.agent ≠ .cons) :
    t.ports = s.ports := by
  have bytes : i.agent = .prod → t.ports = s.ports := fun hprod =>
    exec_prod_induction (P := fun u => u.ports = s.ports) (fun _ _ _ hb hs => (acceptByte_ports hb).trans hs) hprod h rfl
  cases exec_effect h with
  | answered i st d hcons => exact absurd hcons hi
  | snapped | started => exact absurd rfl hi
  | searched | captured | framed => exact bytes rfl
  | disabled => rfl
  | wasReset | halted => rfl

/-- Settles O54: a command writes the response port alone, and any other operation none. -/
theorem operationsLeaveInputsAlone : Obligations.OperationsLeaveInputsAlone := by
  intro i s t h
  by_cases hi : i.agent = .cons
  · have inputs : t.src = s.src ∧ t.sched = s.sched ∧ t.cfgIn = s.cfgIn := by
      cases exec_effect h with
      | answered => exact ⟨rfl, rfl, rfl⟩
      | snapped | started => simp
      | disabled _ hprod => rw [hprod] at hi; cases hi
      | searched | captured | framed | wasReset | halted => cases hi
    obtain ⟨hsrc, hsched, hcfgIn⟩ := inputs
    exact ⟨hsrc, hsched, hcfgIn, fun hne => absurd hi hne⟩
  · obtain ⟨hsrc, hsched, hcfgIn, hresp⟩ := State.ports_eq_iff.1 (exec_ports_of_ne_cons h hi)
    exact ⟨hsrc, hsched, hcfgIn, fun _ => hresp⟩

end Sys2Proof.Machine
end

section
/-! A FRAME accepted from `HUNT`: the marker leads to `BODY` from every match position, and the 32 body bytes to the commit
(R63, R78, R86, R90, R100). -/

namespace Sys2Proof.Machine

/-! ### The marker -/

/-- R86: a byte that continues the match, short of the fourth, moves the match position on. -/
theorem acceptByte_match {s : State} (hp : s.phase = .hunt) {b : Byte} {n : Nat} (hm : matchCount s.mpos b = n)
    (hn : n ≠ 4) : acceptByte b s = .next (setMatch n s) := by
  rw [acceptByte_hunt hp, huntByte_of_incomplete (hm.trans_ne hn), hm]

/-- R86: the first marker byte begins a match, whatever was matched before it. -/
theorem matchCount_first (m : Fin 4) : matchCount m 0x55 = 1 := by
  revert m; decide

/-- R87, R89: the four marker bytes lead from `HUNT`, at any match position, to `BODY` with nothing captured. -/
theorem acceptBytes_marker {s : State} (hp : s.phase = .hunt) : acceptBytes Config.marker s = .next (enterBody s) := by
  have first : acceptByte 0x55 s = .next (setMatch 1 s) := acceptByte_match hp (matchCount_first s.mpos) (by decide)
  have second : acceptByte 0xAA (setMatch 1 s) = .next (setMatch 2 s) :=
    acceptByte_match (s := setMatch 1 s) (n := 2) hp rfl (by decide)
  have third : acceptByte 0x03 (setMatch 2 s) = .next (setMatch 3 s) :=
    acceptByte_match (s := setMatch 2 s) (n := 3) hp rfl (by decide)
  have fourth : acceptByte 0x08 (setMatch 3 s) = .next (enterBody s) := acceptByte_hunt (s := setMatch 3 s) hp 0x08
  rw [Config.marker, acceptBytes_cons_of_next _ first, acceptBytes_cons_of_next _ second,
    acceptBytes_cons_of_next _ third, acceptBytes_cons_of_next _ fourth, acceptBytes]

/-! ### The body -/

theorem acceptBytes_singleton (b : Byte) (s : State) : acceptBytes [b] s = acceptByte b s := by
  cases h : acceptByte b s <;> simp only [acceptBytes, h]

/-- A body's next byte, stored, makes one more of its bytes captured. -/
theorem bodyreg_storeBodyByte {v : Vector Byte 32} {s : State} (hp : s.phase = .body) (h : s.capturedAre v)
    (k : Fin 32) (hk : k ≤ s.bcnt) : (storeBodyByte v[s.bcnt] s).bodyreg[k] = v[k] := by
  simpa using agree_set (h hp) v[s.bcnt] k hk

/-- The 32nd byte, stored, completes the body. -/
theorem storeBodyByte_last {v : Vector Byte 32} {s : State} (hp : s.phase = .body) (hlast : s.bcnt = 31)
    (h : s.capturedAre v) : storeBodyByte v[s.bcnt] s = s.withBody v := by
  have complete : (storeBodyByte v[s.bcnt] s).bodyreg = v :=
    Vector.ext fun k hk => bodyreg_storeBodyByte hp h ⟨k, hk⟩ (by rw [hlast]; exact Fin.le_last (n := 31) _)
  calc storeBodyByte v[s.bcnt] s = s.withBody (storeBodyByte v[s.bcnt] s).bodyreg := rfl
    _ = s.withBody v := by rw [complete]

/-- R90: with the first bytes of a body captured, the rest of its bytes, accepted in order, lead to its commit. -/
theorem acceptBytes_restOfBody {v : Vector Byte 32} (bs : List Byte) {s : State} (hp : s.phase = .body)
    (h : s.capturedAre v) (hbs : v.toList.drop s.bcnt = bs) :
    acceptBytes bs s = commit (setBcnt 0 (s.withBody v)) := by
  induction bs generalizing s with
  | nil =>
    have full : v.toList.length ≤ s.bcnt := List.drop_eq_nil_iff.1 hbs
    rw [Vector.length_toList] at full
    omega
  | cons b bs ih =>
    rw [List.drop_eq_getElem_cons (by simp)] at hbs
    obtain ⟨hb, hrest⟩ := List.cons.inj hbs
    obtain rfl : v[s.bcnt] = b := by simpa using hb
    by_cases hlast : s.bcnt = 31
    · obtain rfl : bs = [] := by rw [← hrest, hlast]; exact List.drop_eq_nil_of_le (by simp)
      rw [acceptBytes_singleton, acceptByte_body hp, bodyByte_of_last hlast, storeBodyByte_last hp hlast h]
    · have stored := (acceptByte_body hp v[s.bcnt]).trans (bodyByte_of_not_last hlast v[s.bcnt])
      have next : (s.bcnt + 1).val = s.bcnt.val + 1 := by omega
      have captured : (setBcnt (s.bcnt + 1) (storeBodyByte v[s.bcnt] s)).capturedAre v := fun _ k hk =>
        bodyreg_storeBodyByte hp h k (by simp only [setBcnt_bcnt] at hk; omega)
      calc acceptBytes (v[s.bcnt] :: bs) s
          = acceptBytes bs (setBcnt (s.bcnt + 1) (storeBodyByte v[s.bcnt] s)) := acceptBytes_cons_of_next bs stored
        _ = commit (setBcnt 0 ((setBcnt (s.bcnt + 1) (storeBodyByte v[s.bcnt] s)).withBody v)) :=
          ih hp captured (by rw [setBcnt_bcnt, next, hrest])
        _ = commit (setBcnt 0 (s.withBody v)) := congrArg commit rfl

/-- R63, R78: a wire frame's 36 bytes, accepted from `HUNT`, are the commit of its body. -/
theorem acceptBytes_frameBytes {s : State} (hp : s.phase = .hunt) (v : Vector Byte 32) :
    acceptBytes (frameBytes v) s =
      commit { s with phase := .body, mpos := 0, bcnt := 0, bodyreg := v } := by
  have nothingCaptured : (enterBody s).capturedAre v := fun _ k hk => absurd hk (Nat.not_lt_zero k)
  rw [frameBytes, acceptBytes_append_of_next _ (acceptBytes_marker hp),
    acceptBytes_restOfBody v.toList rfl nothingCaptured rfl]
  rfl

/-! ### The commit -/

/-- The append reads nothing of the sequencing triple and `BODYREG`. -/
theorem appendSamples_capture (xs : List Sample) (s : State) (ph : Phase) (m : Fin 4) (n : Fin 32)
    (v : Vector Byte 32) : appendSamples xs { s with phase := ph, mpos := m, bcnt := n, bodyreg := v } =
      { appendSamples xs s with phase := ph, mpos := m, bcnt := n, bodyreg := v } := by
  induction xs generalizing s with
  | nil => rfl
  | cons x xs ih => exact ih (appendSample x s)

/-- The append of a packet whose body stands in `BODYREG`, in the terms of its fields. -/
theorem appendedPacket_packetBody (f : Fields) (s : State) :
    appendedPacket { s with phase := .hunt, mpos := 0, bcnt := 0, bodyreg := packetBody f } =
      { latchFields f (appendSamples (packetSamples s.cfg.mirrored f) s) with
        phase := .hunt, mpos := 0, bcnt := 0, bodyreg := packetBody f } := by
  simp only [appendedPacket, bodyFields_packetBody, appendSamples_capture]
  rfl

theorem commitWith_of_dropped {ok : Bool} {s : State} (h : isDropped s.cfg ok = true) :
    commitWith ok s = .next (returnToHunt s) := by
  rw [commitWith, if_pos h, takeException_checksumMismatch]

theorem commitWith_of_accepted {ok : Bool} {s : State} (h : isDropped s.cfg ok = false) (hw : s.wcur < s.cfg.capacity) :
    commitWith ok s = .next (appendedPacket (returnToHunt s)) := by
  rw [commitWith, if_neg (by simp [h]), appendPacket_of_lt (by simpa using hw)]

/-- FRAME from `HUNT` is the commit of its body bytes on `CHECKSUM_OK` of its line (R78, R101). -/
theorem exec_frame_of_hunt {s : State} (hp : s.phase = .hunt) (f : Fields) :
    exec (.frame f) s = commitWith (Config.checksumOk (frameLine f))
      { s with phase := .body, mpos := 0, bcnt := 0, bodyreg := packetBody f } := by
  rw [exec_frame, ← frameBytes_packetBody]
  exact acceptBytes_frameBytes hp (packetBody f)

/-- Settles O38: a dropped frame's commit returns to `HUNT` and does nothing else (R102). -/
theorem frameReachesChecksumGate : Obligations.FrameReachesChecksumGate := by
  intro f s hp
  refine ⟨packetBody f, packetBody_toList f, exec_frame_of_hunt hp f, fun hstrict => ?_⟩
  exact commitWith_of_dropped (by simp [isDropped, hstrict])

/-- Settles O37: the commit's gate lets the frame through, and the fields of its body are its own. -/
theorem frameCommitsItsFields : Obligations.FrameCommitsItsFields := by
  intro f s hp hw hgate
  have accepted : isDropped s.cfg (Config.checksumOk (frameLine f)) = false := by
    rcases hgate with hstrict | hok
    · simp [isDropped, hstrict]
    · simp [isDropped, hok]
  refine ⟨packetBody f, packetBody_toList f, ?_⟩
  rw [exec_frame_of_hunt hp, commitWith_of_accepted ?gate ?slot]
  case gate => exact accepted
  case slot => exact hw
  exact congrArg Host.Outcome.next (appendedPacket_packetBody f s)

end Sys2Proof.Machine
end

section
/-! BYTE_HUNT (R86, R87): the match count as a table, what a byte of the search leaves, and which accepted bytes change
nothing (R51, log 20). -/

namespace Sys2Proof.Machine

/-! ### The match count -/

/-- R87: the transition table of the search, 4 for the completed marker. -/
theorem matchCount_table (m : Fin 4) (b : Byte) :
    matchCount m b = if m = 3 ∧ b = 0x08 then 4 else if b = 0x55 then 1 else if m = 1 ∧ b = 0xAA then 2
      else if m = 2 ∧ b = 0x03 then 3 else 0 := by
  fin_cases m <;> simp [matchCount, Config.markerAt, Config.marker] <;> grind

theorem matchCount_le (m : Fin 4) (b : Byte) : matchCount m b ≤ 4 := by
  unfold matchCount
  split
  · exact m.isLt
  · split <;> decide

/-- R89: only `0x08` after three matched bytes completes the marker. -/
theorem matchCount_eq_four_iff (m : Fin 4) (b : Byte) : matchCount m b = 4 ↔ m = 3 ∧ b = 0x08 := by
  rw [matchCount_table]
  grind

/-- R86: a byte extends a match of `k` bytes where `k` bytes were matched, or none need be, and it is marker byte `k`. -/
theorem matchCount_eq_succ_iff (m k : Fin 4) (b : Byte) :
    matchCount m b = k.val + 1 ↔ (k = 0 ∨ k = m) ∧ b = Config.markerAt k := by
  rw [matchCount_table]
  fin_cases k <;> simp [Config.markerAt, Config.marker] <;> grind

/-- R51, R87: the bytes of the search that leave the match position as it was. -/
theorem matchCount_eq_self_iff (m : Fin 4) (b : Byte) :
    matchCount m b = m.val ↔ (m = 0 ∧ b ≠ 0x55) ∨ (m = 1 ∧ b = 0x55) := by
  rw [matchCount_table]
  fin_cases m <;> simp <;> grind

/-! ### What a byte of the search leaves -/

theorem exec_byteHunt_of_hunt {s : State} (hp : s.phase = .hunt) (b : Byte) :
    exec (.byteHunt b) s = .next (huntByte b s) := by
  rw [exec_byteHunt_eq, if_pos hp, acceptByte_hunt hp]

/-- Settles O23: the byte completes the marker, or sets the match position the table gives. -/
theorem huntTransitionTable : Obligations.HuntTransitionTable := by
  intro b s hp
  rw [exec_byteHunt_of_hunt hp]
  by_cases hc : s.mpos = 3 ∧ b = 0x08
  · rw [huntByte_of_complete ((matchCount_eq_four_iff _ _).2 hc), if_pos hc]
    rfl
  · rw [huntByte_of_incomplete (mt (matchCount_eq_four_iff _ _).1 hc), if_neg hc, matchCount_table, if_neg hc, setMatch]
    simp only [apply_ite (Fin.ofNat 4)]
    rfl

/-- A byte of the search leaves the state as it was where it leaves the match position so. -/
theorem huntByte_eq_self_iff {s : State} (hp : s.phase = .hunt) (b : Byte) :
    huntByte b s = s ↔ matchCount s.mpos b = s.mpos.val := by
  rcases huntByte_cases b s with ⟨hm, he⟩ | ⟨hm, he⟩ <;> rw [he]
  · have entered : enterBody s ≠ s := fun h => by simpa [hp] using congrArg State.phase h
    exact iff_of_false entered (by omega)
  · have short : matchCount s.mpos b < 4 := lt_of_le_of_ne (matchCount_le s.mpos b) hm
    constructor
    · intro h
      simpa [Fin.ext_iff, Nat.mod_eq_of_lt short] using congrArg State.mpos h
    · intro h
      rw [h, setMatch, Fin.ofNat_val_eq_self]

/-- A body byte moves the sequencing triple: the count advances, or the framer returns to `HUNT` (R90). -/
theorem bodyByte_ne_self {s : State} (hp : s.phase = .body) (b : Byte) : bodyByte b s ≠ .next s := by
  intro h
  have same := bodyByte_triple hp h
  by_cases hlast : s.bcnt = 31 <;> simp [State.triple, byteTriple, hp, hlast] at same

/-- Settles O58: in `HUNT` by the table of R87, in `BODY` by the sequencing triple. -/
theorem acceptedByteChangesState : Obligations.AcceptedByteChangesState := by
  intro b s
  refine ⟨fun hp => ?hunt, fun hp => ?body⟩
  case hunt =>
    rw [exec_byteHunt_of_hunt hp, Host.Outcome.next.injEq, huntByte_eq_self_iff hp, matchCount_eq_self_iff]
  case body =>
    rw [exec_byteBody_eq, if_pos hp, acceptByte_body hp]
    exact bodyByte_ne_self hp b

end Sys2Proof.Machine
end

section
/-! The search for the marker (R88): the match position is the length of the one beginning of the marker that ends the bytes
accepted so far, since the four marker bytes are all different. -/

namespace Sys2Proof.Machine

/-- The beginnings of the marker that end `bs` are the empty one and the one of length `m`. -/
def IsMatchLength (bs : List Byte) (m : Nat) : Prop :=
  ∀ n ≤ 4, Config.marker.take n <:+ bs ↔ n = 0 ∨ n = m

theorem isMatchLength_nil : IsMatchLength [] 0 := by
  unfold IsMatchLength
  decide

/-- A longer beginning of the marker ends the bytes with `b` where `b` is its last byte and the rest ended them before. -/
theorem marker_take_succ_suffix_concat_iff (k : Fin 4) (bs : List Byte) (b : Byte) :
    Config.marker.take (k.val + 1) <:+ bs ++ [b] ↔ Config.marker.take k.val <:+ bs ∧ b = Config.markerAt k := by
  have hk : k.val < Config.marker.length := k.isLt
  rw [List.take_succ_eq_append_getElem hk, List.suffix_concat_iff]
  constructor
  · rintro (hnil | ⟨t, ht, hs⟩)
    · exact absurd hnil (List.concat_ne_nil _ _)
    · obtain ⟨rfl, hb⟩ := List.append_singleton_inj.1 ht
      exact ⟨hs, hb.symm⟩
  · rintro ⟨hs, rfl⟩
    exact .inr ⟨_, rfl, hs⟩

/-- R86, R88: a byte of the search keeps the match count the length of the longest beginning of the marker found. -/
theorem IsMatchLength.concat {bs : List Byte} {m : Fin 4} (h : IsMatchLength bs m.val) (b : Byte) :
    IsMatchLength (bs ++ [b]) (matchCount m b) := by
  intro n hn
  cases n with
  | zero => simp
  | succ k =>
    obtain ⟨k, rfl⟩ : ∃ j : Fin 4, j.val = k := ⟨⟨k, hn⟩, rfl⟩
    calc Config.marker.take (k.val + 1) <:+ bs ++ [b]
        ↔ (k.val = 0 ∨ k.val = m.val) ∧ b = Config.markerAt k := by
          rw [marker_take_succ_suffix_concat_iff, h k.val (by omega)]
      _ ↔ matchCount m b = k.val + 1 := by
          rw [matchCount_eq_succ_iff, Fin.ext_iff, Fin.ext_iff, Fin.val_zero]
      _ ↔ k.val + 1 = 0 ∨ k.val + 1 = matchCount m b := by omega

theorem IsMatchLength.le {bs : List Byte} {m n : Nat} (h : IsMatchLength bs m) (hn : n < 4)
    (hs : Config.marker.take n <:+ bs) : n ≤ m := by
  have := (h n hn.le).1 hs
  omega

theorem IsMatchLength.marker_suffix_iff {bs : List Byte} {m : Nat} (h : IsMatchLength bs m) :
    [0x55, 0xAA, 0x03, 0x08] <:+ bs ↔ m = 4 := by
  have whole : [0x55, 0xAA, 0x03, 0x08] <:+ bs ↔ 4 = 0 ∨ 4 = m := h 4 le_rfl
  rw [whole]
  omega

theorem acceptBytes_concat {bs : List Byte} {s t : State} (h : acceptBytes bs s = .next t) (b : Byte) :
    acceptBytes (bs ++ [b]) s = acceptByte b t := by
  rw [acceptBytes_append_of_next [b] h, acceptBytes_singleton]

/-- R88, R96: bytes without a marker move the match position alone, and it stays the length of what they match. -/
theorem acceptBytes_search {s : State} (hp : s.phase = .hunt) (hm : s.mpos = 0) (bs : List Byte)
    (hbs : ¬ [0x55, 0xAA, 0x03, 0x08] <:+: bs) :
    ∃ m : Fin 4, acceptBytes bs s = .next { s with mpos := m } ∧ IsMatchLength bs m.val := by
  induction bs using List.reverseRecOn with
  | nil => exact ⟨0, by rw [acceptBytes, ← hm], isMatchLength_nil⟩
  | append_singleton bs b ih =>
    obtain ⟨notLast, notBefore⟩ := not_or.1 (mt List.infix_concat_iff.2 hbs)
    obtain ⟨m, hrun, hmatch⟩ := ih notBefore
    have found := hmatch.concat b
    have incomplete : matchCount m b ≠ 4 := mt found.marker_suffix_iff.2 notLast
    refine ⟨Fin.ofNat 4 (matchCount m b), ?_, ?_⟩
    · rw [acceptBytes_concat hrun, acceptByte_hunt (s := { s with mpos := m }) hp,
        huntByte_of_incomplete (s := { s with mpos := m }) incomplete]
      rfl
    · have short : matchCount m b < 4 := lt_of_le_of_ne (matchCount_le m b) incomplete
      rwa [Fin.val_ofNat, Nat.mod_eq_of_lt short]

/-- Settles O24: the search is `acceptBytes_search`, and the byte that makes the match length 4 enters `BODY`. -/
theorem searchFindsFirstMarker : Obligations.SearchFindsFirstMarker := by
  intro bs s hp hm
  refine ⟨fun hbs => ?searching, fun hlast hbefore => ?found⟩
  case searching =>
    obtain ⟨m, hrun, hmatch⟩ := acceptBytes_search hp hm bs hbs
    exact ⟨m, hrun, (hmatch m (by omega)).2 (.inr rfl), fun n hn hs => hmatch.le hn hs⟩
  case found =>
    obtain ⟨bs, b, rfl⟩ := List.eq_nil_or_concat' bs |>.resolve_left (by rintro rfl; simp at hlast)
    rw [List.dropLast_concat] at hbefore
    obtain ⟨m, hrun, hmatch⟩ := acceptBytes_search hp hm bs hbefore
    have complete : matchCount m b = 4 := (hmatch.concat b).marker_suffix_iff.1 hlast
    rw [acceptBytes_concat hrun, acceptByte_hunt (s := { s with mpos := m }) hp,
      huntByte_of_complete (s := { s with mpos := m }) complete]
    rfl

end Sys2Proof.Machine
end

section
/-! The body (R90, R91): bytes short of the 32nd are stored in order from `BCNT`; and the phases in which no byte is accepted
(R85, R94). -/

namespace Sys2Proof.Machine

/-! ### Capture -/

/-- A state with one more body byte captured. -/
def captureByte (b : Byte) (s : State) : State := setBcnt (s.bcnt + 1) (storeBodyByte b s)

theorem captureByte_bodyreg_getElem (b : Byte) (s : State) (k : Fin 32) :
    (captureByte b s).bodyreg[k] = if k = s.bcnt then b else s.bodyreg[k] := by
  simp [captureByte, Vector.getElem_set, Fin.ext_iff, eq_comm]

theorem captureByte_bcnt_val {s : State} (h : s.bcnt ≠ 31) (b : Byte) :
    (captureByte b s).bcnt.val = s.bcnt.val + 1 := by
  rw [captureByte, setBcnt_bcnt]
  omega

theorem acceptByte_of_not_last {s : State} (hp : s.phase = .body) (h : s.bcnt ≠ 31) (b : Byte) :
    acceptByte b s = .next (captureByte b s) := by
  rw [acceptByte_body hp, bodyByte_of_not_last h, captureByte]

/-- Settles O25: the next state is `captureByte`'s. -/
theorem bodyByteIsCaptured : Obligations.BodyByteIsCaptured := by
  intro b s hp hshort
  refine ⟨captureByte b s, ?_, captureByte_bcnt_val hshort b, captureByte_bodyreg_getElem b s, rfl⟩
  rw [exec_byteBody_eq, if_pos hp, acceptByte_of_not_last hp hshort]

/-- Settles O26, by induction on the bytes: the first is captured, the others stand behind it. -/
theorem bodyBytesAreData : Obligations.BodyBytesAreData := by
  intro bs
  induction bs with
  | nil =>
    intro s _ _
    exact ⟨s, rfl, rfl, fun k => (if_neg (by rw [List.length_nil]; omega)).symm, rfl⟩
  | cons b bs ih =>
    intro s hp hfits
    rw [List.length_cons] at hfits
    have hshort : s.bcnt ≠ 31 := by omega
    have hcount := captureByte_bcnt_val hshort b
    obtain ⟨t, hrun, hbcnt, hbody, hframe⟩ := ih (captureByte b s) hp (by omega)
    refine ⟨t, ?run, ?count, fun k => ?stored, ?frame⟩
    case run => rw [acceptBytes_cons_of_next bs (acceptByte_of_not_last hp hshort b), hrun]
    case count => rw [hbcnt, hcount, List.length_cons]; omega
    case stored =>
      rw [hbody, hcount, captureByte_bodyreg_getElem, List.length_cons]
      rcases lt_trichotomy k.val s.bcnt.val with hlt | heq | hgt
      · rw [if_neg (by omega), if_neg (by omega), if_neg (by omega)]
      · rw [if_neg (by omega), if_pos (by omega), if_pos (by omega), heq, Nat.sub_self, List.getD_cons_zero]
      · have hpos : k.val - s.bcnt.val = k.val - (s.bcnt.val + 1) + 1 := by omega
        rw [if_neg (c := k = s.bcnt) (by omega), hpos, List.getD_cons_succ]
        exact ite_congr (by rw [eq_iff_iff]; omega) (fun _ => rfl) fun _ => rfl
    case frame =>
      calc { t with bcnt := s.bcnt, bodyreg := s.bodyreg }
          = { { t with bcnt := (captureByte b s).bcnt, bodyreg := (captureByte b s).bodyreg } with
              bcnt := s.bcnt, bodyreg := s.bodyreg } := rfl
        _ = { captureByte b s with bcnt := s.bcnt, bodyreg := s.bodyreg } := by rw [hframe]
        _ = s := rfl

/-! ### Where no byte is accepted -/

/-- R94: in `IDLE` and `HALTED` a line of bytes changes nothing. -/
theorem acceptBytes_waits {s : State} (hp : s.phase = .idle ∨ s.phase = .halted) (bs : List Byte) :
    acceptBytes bs s = .next s := by
  induction bs with
  | nil => rfl
  | cons b bs ih => rw [acceptBytes_cons_of_next bs (acceptByte_waits hp b), ih]

/-- Settles O27: the byte operations by their phase, the FRAME since none of its bytes is accepted. -/
theorem disabledByteOperationsChangeNothing : Obligations.DisabledByteOperationsChangeNothing := by
  intro b f s
  refine ⟨fun hp => ?hunt, fun hp => ?body, fun hp => ?frame⟩
  case hunt => rw [exec_byteHunt_eq, if_neg hp]
  case body => rw [exec_byteBody_eq, if_neg hp]
  case frame => rw [exec_frame, acceptBytes_waits hp]

end Sys2Proof.Machine
end

section
/-! The framer's control flow (R97): what the sequencing triple's own machine gives for each operation, under the invariants. -/

namespace Sys2Proof.Machine

/-- A match position one further, narrowed, is the position plus 1, with 3 going round to 0. -/
theorem ofNat_val_succ (m : Fin 4) : Fin.ofNat 4 (m.val + 1) = m + 1 := by
  revert m
  decide

/-- R87, R97: a byte of the search, in the terms of the marker. -/
theorem byteTriple_hunt (b : Byte) (m : Fin 4) (n : Fin 32) :
    byteTriple b (.hunt, m, n) = if m = 3 ∧ b = 0x08 then (.body, 0, 0)
      else (.hunt, if b = Config.markerAt m then m + 1 else if b = 0x55 then 1 else 0, n) := by
  refine ite_congr (propext (matchCount_eq_four_iff m b)) (fun _ => rfl) fun _ => ?_
  have position : Fin.ofNat 4 (matchCount m b) =
      if b = Config.markerAt m then m + 1 else if b = 0x55 then 1 else 0 := by
    simp only [matchCount, apply_ite (Fin.ofNat 4)]
    exact ite_congr rfl (fun _ => ofNat_val_succ m) fun _ => rfl
  rw [position]

/-- R92, R97: a FRAME accepted from `HUNT` leads back to it, dropped or appended. -/
theorem exec_frame_triple_of_hunt {f : Fields} {s t : State} (hp : s.phase = .hunt) (h : exec (.frame f) s = .next t) :
    t.triple = (.hunt, 0, 0) := by
  rw [exec_frame_of_hunt hp] at h
  exact commit_triple (s := { s with phase := .body, mpos := 0, bcnt := 0, bodyreg := packetBody f }) h

/-- A byte operation or a FRAME in `IDLE` or `HALTED` leads nowhere (R94). -/
theorem exec_prod_triple_of_waits {i : Instr} {s t : State} (hi : i.agent = .prod) (h : exec i s = .next t)
    (hp : s.phase = .idle ∨ s.phase = .halted) : t.triple = s.triple := by
  have waiting : t = s := by
    refine exec_prod_induction (P := fun u => u = s) (fun b u v hb hu => ?_) hi h rfl
    subst hu
    rw [acceptByte_waits hp, Host.Outcome.next.injEq] at hb
    exact hb.symm
  rw [waiting]

/-- Settles O28: each operation's row, from `nextTriple`; the invariants give the elements the table writes as 0. -/
theorem controlFlowTable : Obligations.ControlFlowTable := by
  intro i s t hinv h
  have leads := exec_triple h
  cases i with
  | ready | snap | rdsnap | rpm | rsv5 | rsv6 | rsv7 | reset | rxFault => exact leads
  | start =>
    rw [leads]
    refine ite_congr rfl (fun hp => ?_) fun _ => rfl
    rw [State.triple, hinv.mpos_zero (.inl hp), hinv.bcnt_zero (.inl hp)]
  | byteHunt b =>
    refine ⟨fun hp => ?_, exec_prod_triple_of_waits rfl h⟩
    rw [leads, nextTriple, if_pos (show s.triple.1 = .hunt from hp), State.triple, hp, hinv.bcnt_zero (.inr hp),
      byteTriple_hunt]
  | byteBody b =>
    refine ⟨fun hp => ?_, exec_prod_triple_of_waits rfl h⟩
    rw [leads, nextTriple, if_pos (show s.triple.1 = .body from hp), State.triple, hp, hinv.mpos_zero (.inr hp),
      byteTriple]
  | frame f => exact ⟨fun hp => exec_frame_triple_of_hunt hp h, exec_prod_triple_of_waits rfl h⟩

end Sys2Proof.Machine
end

section
/-! Commits that are not dropped (R100, R102, R109 to R114): what the last body byte leaves, a FRAME that arrives inside a
body (R91, R92), and frames back to back (R110 d). -/

namespace Sys2Proof.Machine

/-! ### The registers a commit writes -/

@[simp] theorem appendedPacket_bodyreg (s : State) : (appendedPacket s).bodyreg = s.bodyreg := by simp [appendedPacket]
@[simp] theorem appendedPacket_prevStart (s : State) :
    (appendedPacket s).prevStart = (bodyFields s.bodyreg).rawStart := rfl
@[simp] theorem appendedPacket_rpmRaw (s : State) : (appendedPacket s).rpmRaw = (bodyFields s.bodyreg).rawSpeed := rfl
@[simp] theorem appendedPacket_cksum (s : State) : (appendedPacket s).cksum = (bodyFields s.bodyreg).cks := rfl

/-- R109: a packet's eight samples advance the cursor by 8. -/
theorem appendedPacket_wcur {s : State} (h : s.wcur < s.cfg.capacity) :
    (appendedPacket s).wcur = (s.wcur + 8) % s.cfg.capacity := by
  rw [appendedPacket, latchFields_wcur, appendSamples_wcur h, packetSamples_length]

theorem appendedPacket_wcur_lt {s : State} (h : s.wcur < s.cfg.capacity) :
    (appendedPacket s).wcur < (appendedPacket s).cfg.capacity := by
  rw [appendedPacket_wcur h, appendedPacket_cfg]
  exact Nat.mod_lt _ (by omega)

/-- A commit's append writes the elements R33 gives to commits, and no other. -/
theorem appendedPacket_frame (s : State) :
    appendedPacket s = { s with
      ring := (appendedPacket s).ring, wcur := (appendedPacket s).wcur, rotc := (appendedPacket s).rotc
      prevStart := (appendedPacket s).prevStart, rpmRaw := (appendedPacket s).rpmRaw
      cksum := (appendedPacket s).cksum } := by
  ext1 <;> simp [appendedPacket]

/-- R111, R112: the flag stands after a commit where it stood before or the start angle is below the last one. -/
theorem rotcAfterCommit_eq_true_iff (rotc : Bool) (rawStart prevStart : Half) :
    rotcAfterCommit rotc rawStart prevStart = true ↔ rotc = true ∨ rawStart.toNat < prevStart.toNat := by
  by_cases h : rawStart.toNat < prevStart.toNat <;> simp [rotcAfterCommit, isWrap, h]

/-! ### The gate -/

theorem isDropped_eq_false {c : Config} {ok : Bool} (h : c.strict = false ∨ ok = true) : isDropped c ok = false := by
  rcases h with h | h <;> simp [isDropped, h]

/-- R100, R102: a commit the gate lets through, at a slot that exists. -/
theorem commit_of_accepted {s : State} (hgate : s.cfg.strict = false ∨ Config.checksumOk (frameBytes s.bodyreg) = true)
    (hw : s.wcur < s.cfg.capacity) : commit s = .next (appendedPacket (returnToHunt s)) :=
  commitWith_of_accepted (isDropped_eq_false hgate) hw

/-- R92, R102, R109: in a block that is not strict a commit advances the cursor by 8 and leads to `HUNT`. -/
theorem commit_of_not_strict {s : State} (hstrict : s.cfg.strict = false) (hw : s.wcur < s.cfg.capacity) :
    ∃ t, commit s = .next t ∧ t.triple = (.hunt, 0, s.bcnt) ∧ t.wcur = (s.wcur + 8) % s.cfg.capacity :=
  have run := commit_of_accepted (.inl hstrict) hw
  ⟨_, run, commit_triple run, appendedPacket_wcur (s := returnToHunt s) hw⟩

/-- Settles O29: the byte completes the body, and the commit's append writes the registers. -/
theorem lastBodyByteCommits : Obligations.LastBodyByteCommits := by
  intro b s body hp hlast hw hbody hgate
  have stored : (bodyCompleted b s).bodyreg = body := by rw [hbody]; simp [bodyCompleted, hlast]
  refine ⟨appendedPacket (bodyCompleted b s), ?run, ?triple, ?body, ?wcur, ?rotc, ?prevStart, ?rpmRaw, ?cksum, ?frame⟩
  case run =>
    rw [exec_byteBody_eq, if_pos hp, acceptByte_body hp, bodyByte_of_last hlast]
    refine commit_of_accepted ?_ hw
    rw [← stored] at hgate
    exact hgate
  case triple => simp [State.triple, bodyCompleted]
  case body => rw [appendedPacket_bodyreg, stored]
  case wcur => exact appendedPacket_wcur (s := bodyCompleted b s) hw
  case rotc => rw [appendedPacket_rotc, rotcAfterCommit_eq_true_iff, stored]; rfl
  case prevStart => rw [appendedPacket_prevStart, stored]
  case rpmRaw => rw [appendedPacket_rpmRaw, stored]
  case cksum => rw [appendedPacket_cksum, stored]
  case frame => rw [appendedPacket_frame]; rfl

/-! ### With the cursor at a slot that exists, every byte is accepted -/

theorem commit_completes {s : State} (hw : s.wcur < s.cfg.capacity) :
    ∃ t, commit s = .next t ∧ t.wcur < t.cfg.capacity := by
  rcases commitWith_cases (Config.checksumOk (frameBytes s.bodyreg)) s with ⟨-, he⟩ | ⟨-, -, he⟩ | ⟨-, hfault, -⟩
  · exact ⟨_, he, hw⟩
  · exact ⟨_, he, appendedPacket_wcur_lt (s := returnToHunt s) hw⟩
  · exact absurd hw hfault

theorem acceptByte_completes {s : State} (hw : s.wcur < s.cfg.capacity) (b : Byte) :
    ∃ t, acceptByte b s = .next t ∧ t.wcur < t.cfg.capacity := by
  cases hp : s.phase with
  | idle => exact ⟨s, acceptByte_waits (.inl hp) b, hw⟩
  | halted => exact ⟨s, acceptByte_waits (.inr hp) b, hw⟩
  | hunt => exact ⟨_, acceptByte_hunt hp b, by simpa using hw⟩
  | body =>
    rw [acceptByte_body hp]
    by_cases hlast : s.bcnt = 31
    · rw [bodyByte_of_last hlast]
      exact commit_completes (s := setBcnt 0 (storeBodyByte b s)) hw
    · exact ⟨_, bodyByte_of_not_last hlast b, hw⟩

/-- R45, R116: no byte faults while `WCUR` is below `CAPACITY`. -/
theorem acceptBytes_completes {s : State} (hw : s.wcur < s.cfg.capacity) (bs : List Byte) :
    ∃ t, acceptBytes bs s = .next t := by
  induction bs generalizing s with
  | nil => exact ⟨s, rfl⟩
  | cons b bs ih =>
    obtain ⟨u, hu, huw⟩ := acceptByte_completes hw b
    rw [acceptBytes_cons_of_next bs hu]
    exact ih huw

/-! ### A FRAME inside a body -/

/-- The bytes captured so far, and `bs` behind them. -/
def State.filledBody (s : State) (bs : List Byte) : Vector Byte 32 :=
  Vector.ofFn fun k => if k.val < s.bcnt.val then s.bodyreg[k] else bs.getD (k.val - s.bcnt.val) 0

theorem State.filledBody_getElem (s : State) (bs : List Byte) (k : Nat) (hk : k < 32) :
    (s.filledBody bs)[k] = if k < s.bcnt.val then s.bodyreg[k] else bs.getD (k - s.bcnt.val) 0 :=
  Vector.getElem_ofFn hk

/-- As many bytes as the body has room for stand behind those captured in one body. -/
theorem State.exists_filledBody {s : State} {bs : List Byte} (h : bs.length = 32 - s.bcnt.val) :
    ∃ v, s.capturedAre v ∧ v.toList.drop s.bcnt = bs := by
  refine ⟨s.filledBody bs, fun _ k hk => ?_, List.ext_getElem (by simp [h]) fun k _ hk => ?_⟩
  · simp [State.filledBody_getElem, hk]
  · simp [State.filledBody_getElem, hk]

/-- R90: as many bytes as the body has room for complete it and commit it, whatever they are (R91). -/
theorem acceptBytes_fillBody {s : State} (hp : s.phase = .body) {bs : List Byte} (h : bs.length = 32 - s.bcnt.val)
    (hstrict : s.cfg.strict = false) (hw : s.wcur < s.cfg.capacity) :
    ∃ t, acceptBytes bs s = .next t ∧ t.triple = (.hunt, 0, 0) ∧ t.wcur = (s.wcur + 8) % s.cfg.capacity := by
  obtain ⟨v, captured, behind⟩ := State.exists_filledBody h
  rw [acceptBytes_restOfBody bs hp captured behind]
  exact commit_of_not_strict (s := setBcnt 0 (s.withBody v)) hstrict hw

/-- Settles O39: the line is cut where the body is full; its first part commits, and the rest of it is accepted from there. -/
theorem frameInsideBodyIsData : Obligations.FrameInsideBodyIsData := by
  intro f s hp hstrict hw
  have fills : ((frameLine f).take (32 - s.bcnt.val)).length = 32 - s.bcnt.val := by
    rw [List.length_take, frameLine_length]
    omega
  obtain ⟨t, hrun, htriple, hwcur⟩ := acceptBytes_fillBody hp fills hstrict hw
  refine ⟨t, hrun, htriple, hwcur, ?rest, ?completes⟩ <;> rw [exec_frame]
  case rest => rw [← acceptBytes_append_of_next _ hrun, List.take_append_drop]
  case completes => exact acceptBytes_completes hw (frameLine f)

/-! ### Frames back to back -/

/-- R110: from `HUNT` in a block that is not strict, a frame advances the cursor by 8 and leaves the framer searching. -/
theorem acceptBytes_frameLine {s : State} (hp : s.phase = .hunt) (hstrict : s.cfg.strict = false)
    (hw : s.wcur < s.cfg.capacity) (f : Fields) :
    ∃ t, acceptBytes (frameLine f) s = .next t ∧ t.phase = .hunt ∧ t.cfg = s.cfg ∧
      t.wcur = (s.wcur + 8) % s.cfg.capacity := by
  obtain ⟨body, -, hrun⟩ := frameCommitsItsFields f s hp hw (.inl hstrict)
  exact ⟨_, (exec_frame f s).symm.trans hrun, rfl, by simp, by simp [appendSamples_wcur hw]⟩

/-- R110: a list of frames back to back, from any cursor. -/
theorem acceptBytes_frameLines (fs : List Fields) {s : State} (hp : s.phase = .hunt) (hstrict : s.cfg.strict = false)
    (hw : s.wcur < s.cfg.capacity) :
    ∃ t, acceptBytes (fs.flatMap frameLine) s = .next t ∧ t.phase = .hunt ∧
      t.wcur = (s.wcur + 8 * fs.length) % s.cfg.capacity := by
  induction fs generalizing s with
  | nil => exact ⟨s, rfl, hp, (Nat.mod_eq_of_lt hw).symm⟩
  | cons f fs ih =>
    obtain ⟨u, hrun, hup, hucfg, huw⟩ := acceptBytes_frameLine hp hstrict hw f
    obtain ⟨t, hrest, htp, htw⟩ := ih hup (by rw [hucfg, hstrict]) (by rw [huw, hucfg]; exact Nat.mod_lt _ (by omega))
    refine ⟨t, ?_, htp, ?_⟩
    · rw [List.flatMap_cons, acceptBytes_append_of_next _ hrun, hrest]
    · rw [htw, huw, hucfg, Nat.mod_add_mod, List.length_cons]
      congr 1
      omega

/-- Settles O40: `acceptBytes_frameLines` from cursor 0, a slot every capacity has. -/
theorem framesAdvanceCursor : Obligations.FramesAdvanceCursor := by
  intro fs s hp hzero hstrict
  have hw : s.wcur < s.cfg.capacity := hzero ▸ s.cfg.legal.1
  simpa [hzero] using acceptBytes_frameLines fs hp hstrict hw

end Sys2Proof.Machine
end

section
/-! What a turn takes from the SOURCE (R66, R98), and the turns in which the FRAMER waits (R93, R94). -/

namespace Sys2Proof.Machine

/-! ### Waiting -/

theorem State.inReady_eq_false {s : State} (hp : s.phase = .idle ∨ s.phase = .halted) : s.inReady = false := by
  rcases hp with hp | hp <;> simp [State.inReady, phaseInReady, hp]

theorem fetchByte_of_waits {s : State} (h : s.inReady = false ∨ s.src = []) : fetchByte s = (none, s) := by
  rcases fetchByte_cases s with ⟨b, rest, hready, hsrc, -⟩ | ⟨-, he⟩
  · simp [hready, hsrc] at h
  · exact he

/-- No bytes are no FRAME line. -/
theorem fetchFrame_of_waits {s : State} (h : s.inReady = false ∨ s.src = []) : fetchFrame s = (none, s) := by
  rw [fetchFrame_of_not_line, fetchByte_of_waits h]
  rcases h with hready | hsrc
  · simp [hready]
  · simp [hsrc, isFrameLine, Config.frameLen, Config.bodyLen]

theorem step_of_fetch_none {s u : State} (hf : fetch s = (none, u)) : step s = .next u := by
  simp only [step, hf]

/-- Settles O10: for each kind of turn, the fetch presents nothing. -/
theorem waitingChangesNothing : Obligations.WaitingChangesNothing := by
  intro s ts hsched hwait
  have waits (hne : s.sched ≠ []) : (beginStep ts s).inReady = false ∨ (beginStep ts s).src = [] := by
    rcases hwait with hnone | hsrc | hphase
    · exact absurd hnone hne
    · exact .inr hsrc
    · exact .inl (State.inReady_eq_false (s := beginStep ts s) hphase)
  rcases hsched with hcycle | hframe | ⟨hnone, rfl⟩ <;> apply step_of_fetch_none
  · rw [fetch_of_sched hcycle]
    exact (fetchCycle_of_idle _).trans (fetchByte_of_waits (waits (by simp [hcycle])))
  · rw [fetch_of_sched hframe]
    exact fetchFrame_of_waits (waits (by simp [hframe]))
  · rw [fetch, hnone]
    rfl

/-! ### Taking -/

/-- What was offered is what a turn takes, none, one byte or a frame, and then what is offered after. -/
def TakesInOrder (s t : State) : Prop :=
  ∃ taken, s.src = taken ++ t.src ∧ (taken.length = 0 ∨ taken.length = 1 ∨ taken.length = 36)

theorem TakesInOrder.of_src_eq {s t : State} (h : t.src = s.src) : TakesInOrder s t := ⟨[], h.symm, .inl rfl⟩

theorem fetchByte_takesInOrder (s : State) : TakesInOrder s (fetchByte s).2 := by
  rcases fetchByte_cases s with ⟨b, rest, -, hsrc, he⟩ | ⟨-, he⟩ <;> rw [he]
  · exact ⟨[b], hsrc, .inr (.inl rfl)⟩
  · exact .of_src_eq rfl

theorem fetchFrame_takesInOrder (s : State) : TakesInOrder s (fetchFrame s).2 := by
  by_cases hline : (s.inReady && isFrameLine (s.src.take Config.frameLen)) = true
  · rw [fetchFrame_of_line hline]
    have whole := length_of_isFrameLine (Bool.and_eq_true_iff.1 hline).2
    exact ⟨s.src.take Config.frameLen, (List.take_append_drop _ _).symm, .inr (.inr whole)⟩
  · rw [fetchFrame_of_not_line hline]
    exact fetchByte_takesInOrder s

theorem fetchCycle_takesInOrder (rst rxFault : Pin) (s : State) : TakesInOrder s (fetchCycle rst rxFault s).2 := by
  unfold fetchCycle
  split
  · exact .of_src_eq rfl
  · exact fetchByte_takesInOrder s

theorem fetch_takesInOrder (s : State) : TakesInOrder s (fetch s).2 := by
  unfold fetch
  cases s.sched with
  | nil => exact .of_src_eq rfl
  | cons turn ts =>
    cases turn with
    | cmd w => exact .of_src_eq rfl
    | cycle rst rxFault => exact fetchCycle_takesInOrder rst rxFault (beginStep ts s)
    | frame => exact fetchFrame_takesInOrder (beginStep ts s)

/-- Settles O13: the fetch takes in order, and no operation touches what the SOURCE still offers. -/
theorem bytesAreTakenOnceInOrder : Obligations.BytesAreTakenOnceInOrder := by
  intro s t h
  obtain ⟨taken, hsrc, hlen⟩ := fetch_takesInOrder s
  have kept : t.src = (fetch s).2.src := by
    rcases step_next h with ⟨-, rfl⟩ | ⟨w, i, -, -, hi⟩
    · rfl
    · obtain ⟨keepsSrc, -⟩ := operationsLeaveInputsAlone i _ t hi
      exact keepsSrc
  exact ⟨taken, by rw [kept, hsrc], hlen⟩

end Sys2Proof.Machine
end

section
/-! The angle arithmetic of a commit (R103 to R108), in the raw fields of the packet. -/

namespace Sys2Proof.Machine

theorem startUnits_eq (f : Fields) : startUnits f = (f.rawStart.toNat : Int) - 40960 := rfl

theorem endUnits_eq (f : Fields) :
    endUnits f = (f.rawEnd.toNat : Int) - 40960 + (if f.rawEnd.toNat < f.rawStart.toNat then 23040 else 0) := by
  by_cases h : f.rawEnd.toNat < f.rawStart.toNat <;>
    simp [endUnits, h, Config.angleOffset, Config.wrapAdd, Config.angleDiv]

/-- R103: the offset of the raw angles cancels out of the sweep. -/
theorem sweepUnits_eq (f : Fields) :
    sweepUnits f =
      (f.rawEnd.toNat : Int) - f.rawStart.toNat + if f.rawEnd.toNat < f.rawStart.toNat then 23040 else 0 := by
  rw [sweepUnits, endUnits_eq, startUnits_eq]
  ring

/-- R103: a sweep that does not wrap is not negative; one that does is at least `23040 - 65535`. -/
theorem sweepUnits_bounds (f : Fields) : -42495 ≤ sweepUnits f ∧ sweepUnits f ≤ 65535 := by
  have := f.rawStart.isLt
  have := f.rawEnd.isLt
  rw [sweepUnits_eq]
  split <;> omega

/-- R103: the one addition of 23040 leaves the sweep negative where the end angle is further below the start angle. -/
theorem sweepUnits_neg_iff (f : Fields) :
    sweepUnits f < 0 ↔ (f.rawEnd.toNat : Int) < (f.rawStart.toNat : Int) - 23040 := by
  rw [sweepUnits_eq]
  split <;> omega

/-- Settles O32: the angles in the raw fields, with the bounds their 16 bits give. -/
theorem sweepFollowsRawAngles : Obligations.SweepFollowsRawAngles := by
  intro f
  obtain ⟨startLo, startHi, -, -⟩ := sweep_bounds f
  obtain ⟨sweepLo, sweepHi⟩ := sweepUnits_bounds f
  exact ⟨startUnits_eq f, startLo, startHi, endUnits_eq f, rfl, sweepLo, sweepHi, sweepUnits_neg_iff f⟩

theorem sampleAngle_eq (f : Fields) (i : Nat) :
    sampleAngle f i = 8 * ((f.rawStart.toNat : Int) - 40960) + i *
      ((f.rawEnd.toNat : Int) - f.rawStart.toNat + if f.rawEnd.toNat < f.rawStart.toNat then 23040 else 0) := by
  rw [sampleAngle, startUnits_eq, sweepUnits_eq]

/-- Settles O33: R104 with the start angle and the sweep in the raw fields. -/
theorem sampleAngleFormula : Obligations.SampleAngleFormula := fun f i => sampleAngle_eq f i.val

/-- R105: the stored angle of mirrored mode is the negation of the other's. -/
theorem packetSample_angle_not (mirrored : Bool) (f : Fields) (i : Fin 8) :
    (packetSample (!mirrored) f i).angle.toInt = -(packetSample mirrored f i).angle.toInt := by
  rw [packetSample_angle, packetSample_angle]
  cases mirrored <;> simp [storedAngle]

/-- Settles O34: the bounds of R108 are reached with no sweep from the least start angle, and with the greatest sweep that
wraps, at its last sample. -/
theorem storedAnglesAreExactAndBounded : Obligations.StoredAnglesAreExactAndBounded := by
  refine ⟨fun f i => ?exact, fun f i hstart hend => ?least, fun f hstart hend => ?greatest⟩
  case exact =>
    obtain ⟨lo, hi⟩ := sampleAngle_bounds f i.isLt
    exact ⟨lo, hi, packetSample_angle false f i, packetSample_angle true f i⟩
  case least => simp [sampleAngle_eq, hstart, hend]
  case greatest => simp [sampleAngle_eq, hstart, hend]

end Sys2Proof.Machine
end

section
/-! What a commit leaves in the slots of `RING` (R109, R110 b, R117), with and without mirroring (R105); the checksum gate
in front of it (R101, R102) and the flag behind it (R111). -/

namespace Sys2Proof.Machine

/-! ### The slots an append writes -/

/-- The slot `i` places on from the next slot is the slot `i + 1` places on. -/
theorem appendSample_slot (x : Sample) (s : State) (i : Nat) :
    ((appendSample x s).wcur + i) % (appendSample x s).cfg.capacity = (s.wcur + (i + 1)) % s.cfg.capacity := by
  rw [appendSample_wcur, appendSample_cfg, Nat.mod_add_mod, Nat.add_assoc, Nat.add_comm 1]

theorem appendSample_wcur_lt {s : State} (hw : s.wcur < s.cfg.capacity) (x : Sample) :
    (appendSample x s).wcur < (appendSample x s).cfg.capacity :=
  appendSamples_wcur_lt hw [x]

/-- R109: a slot no sample goes to reads as before the append. -/
theorem appendSamples_read_of_unwritten (xs : List Sample) {s : State} (hw : s.wcur < s.cfg.capacity) {j : Nat}
    (h : ∀ i < xs.length, (s.wcur + i) % s.cfg.capacity ≠ j) : (appendSamples xs s).ring.read j = s.ring.read j := by
  induction xs generalizing s with
  | nil => rfl
  | cons x xs ih =>
    have first : s.wcur ≠ j := by simpa [Nat.mod_eq_of_lt hw] using h 0 (by simp)
    have later : ∀ i < xs.length, ((appendSample x s).wcur + i) % (appendSample x s).cfg.capacity ≠ j := by
      intro i hi
      rw [appendSample_slot]
      exact h (i + 1) (by simpa using hi)
    calc (appendSamples (x :: xs) s).ring.read j
        = (appendSample x s).ring.read j := ih (appendSample_wcur_lt hw x) later
      _ = s.ring.read j := Memory.read_write_ne s.ring x first

/-- R110 (b): a slot reads as the sample that goes to it with no later one going there. -/
theorem appendSamples_read_of_last (xs : List Sample) {s : State} (hw : s.wcur < s.cfg.capacity)
    (hwf : s.ring.wf = true) {i j : Nat} (hi : i < xs.length) (hslot : (s.wcur + i) % s.cfg.capacity = j)
    (hlast : ∀ k, i < k → k < xs.length → (s.wcur + k) % s.cfg.capacity ≠ j) :
    (appendSamples xs s).ring.read j = xs[i] := by
  induction xs generalizing s i with
  | nil => exact absurd hi (Nat.not_lt_zero i)
  | cons x xs ih =>
    have hw' := appendSample_wcur_lt hw x
    cases i with
    | zero =>
      have here : s.wcur = j := by simpa [Nat.mod_eq_of_lt hw] using hslot
      have notLater : ∀ k < xs.length, ((appendSample x s).wcur + k) % (appendSample x s).cfg.capacity ≠ j := by
        intro k hk
        rw [appendSample_slot]
        exact hlast (k + 1) k.succ_pos (by simpa using hk)
      calc (appendSamples (x :: xs) s).ring.read j
          = (appendSample x s).ring.read j := appendSamples_read_of_unwritten xs hw' notLater
        _ = x := here ▸ Memory.read_write_same hwf s.wcur x
    | succ i =>
      refine ih hw' (Memory.wf_write hwf s.wcur x) (by simpa using hi) (by rw [appendSample_slot, hslot]) ?_
      intro k hik hk
      rw [appendSample_slot]
      exact hlast (k + 1) (by omega) (by simpa using hk)

/-! ### The slots a packet writes -/

theorem appendedPacket_ring (s : State) :
    (appendedPacket s).ring = (appendSamples (packetSamples s.cfg.mirrored (bodyFields s.bodyreg)) s).ring := rfl

theorem appendedPacket_read_of_unwritten {s : State} (hw : s.wcur < s.cfg.capacity) {j : Nat}
    (h : ∀ i : Fin 8, (s.wcur + i.val) % s.cfg.capacity ≠ j) : (appendedPacket s).ring.read j = s.ring.read j := by
  rw [appendedPacket_ring]
  exact appendSamples_read_of_unwritten _ hw fun i hi => h ⟨i, by simpa using hi⟩

/-- R117: lane `i` of the packet stands in the slots it is the last to write. -/
theorem appendedPacket_read_of_isLastWriter {s : State} (hw : s.wcur < s.cfg.capacity) (hwf : s.ring.wf = true)
    {j : Nat} {i : Fin 8} (h : isLastWriter s.cfg.capacity s.wcur j i) :
    (appendedPacket s).ring.read j = packetSample s.cfg.mirrored (bodyFields s.bodyreg) i := by
  obtain ⟨hslot, hlast⟩ := h
  have lane := appendSamples_read_of_last (packetSamples s.cfg.mirrored (bodyFields s.bodyreg)) hw hwf (by simp) hslot
    fun k hik hk => hlast ⟨k, by simpa using hk⟩ hik
  rw [appendedPacket_ring, lane]
  simp [packetSamples]

/-- A slot that some lane goes to has a last writer. -/
theorem exists_isLastWriter {capacity wcur j : Nat} {i : Fin 8} (h : (wcur + i.val) % capacity = j) :
    ∃ k, isLastWriter capacity wcur j k := by
  obtain ⟨k, hk, hmax⟩ := wellFounded_gt.has_min {k : Fin 8 | (wcur + k.val) % capacity = j} ⟨i, h⟩
  exact ⟨k, hk, fun l hkl hl => hmax l hl hkl⟩

/-! ### The 32nd body byte -/

theorem bodyCompleted_bodyreg_of_last {s : State} (hlast : s.bcnt = 31) (b : Byte) :
    (bodyCompleted b s).bodyreg = s.bodyreg.set 31 b := by simp [bodyCompleted, hlast]

theorem exec_byteBody_of_last {s : State} (hp : s.phase = .body) (hlast : s.bcnt = 31) (b : Byte) :
    exec (.byteBody b) s = commit (setBcnt 0 (storeBodyByte b s)) := by
  rw [exec_byteBody_eq, if_pos hp, acceptByte_body hp, bodyByte_of_last hlast]

theorem setBcnt_storeBodyByte_of_last {s : State} (hlast : s.bcnt = 31) (b : Byte) :
    setBcnt 0 (storeBodyByte b s) = { s with bcnt := 0, bodyreg := s.bodyreg.set 31 b } := by
  simp [setBcnt, storeBodyByte, hlast]

/-- Settles O30: the state after the commit is the packet's append, as in O29, and its slots are read off. -/
theorem commitWritesItsSlots : Obligations.CommitWritesItsSlots := by
  rintro b s body hp hlast hw hwf rfl hgate
  have run : exec (.byteBody b) s = .next (appendedPacket (bodyCompleted b s)) := by
    rw [exec_byteBody_of_last hp hlast]
    refine commit_of_accepted ?_ hw
    rw [← bodyCompleted_bodyreg_of_last hlast] at hgate
    exact hgate
  refine ⟨_, run, appendedPacket_wcur (s := bodyCompleted b s) hw, fun j i hlane => ?lane, fun j hj => ?unwritten⟩
  case lane =>
    rw [appendedPacket_read_of_isLastWriter (s := bodyCompleted b s) hw hwf hlane, bodyCompleted_bodyreg_of_last hlast]
    exact ⟨rfl, rfl, rfl⟩
  case unwritten => exact appendedPacket_read_of_unwritten (s := bodyCompleted b s) hw hj

/-- R102: in a block that is not strict the commit does not look at `CHECKSUM_OK`. -/
theorem commitWith_congr_of_not_strict {s : State} (hstrict : s.cfg.strict = false) (ok ok' : Bool) :
    commitWith ok s = commitWith ok' s := by
  simp [commitWith, isDropped, hstrict]

/-- Settles O31: the byte leads to the commit of the body it completes, and the gate's answers are those of
`commitWith_of_dropped` and `commitWith_of_accepted`. -/
theorem checksumGate : Obligations.ChecksumGate := by
  intro b s t hp hlast ht
  have hcfg : s.cfg = t.cfg := by rw [ht]
  have hwcur : s.wcur = t.wcur := by rw [ht]
  rw [exec_byteBody_of_last hp hlast, setBcnt_storeBodyByte_of_last hlast, ← ht, hcfg, hwcur]
  refine ⟨rfl, fun hstrict => ?dropped, fun hw => ?accepted, fun hstrict => ?ignored⟩
  case dropped => exact commitWith_of_dropped (by simp [isDropped, hstrict])
  case accepted =>
    exact ⟨_, commitWith_of_accepted (isDropped_eq_false (.inr rfl)) hw, appendedPacket_wcur (s := returnToHunt t) hw⟩
  case ignored => exact commitWith_congr_of_not_strict hstrict false true

/-! ### Mirroring -/

/-- In a block that is not strict, a 32nd body byte that completes has appended its packet, at a slot that exists. -/
theorem exec_byteBody_last_next {b : Byte} {s t : State} (hp : s.phase = .body) (hlast : s.bcnt = 31)
    (hstrict : s.cfg.strict = false) (h : exec (.byteBody b) s = .next t) :
    s.wcur < s.cfg.capacity ∧ t = appendedPacket (bodyCompleted b s) := by
  rw [exec_byteBody_of_last hp hlast] at h
  rcases commitWith_cases _ (setBcnt 0 (storeBodyByte b s)) with ⟨hdrop, -⟩ | ⟨-, hw, he⟩ | ⟨-, -, he⟩
  · simp [isDropped, hstrict] at hdrop
  · exact ⟨hw, Host.Outcome.next.inj (h.symm.trans he)⟩
  · cases h.symm.trans he

/-- Of what a packet's append leaves, the configuration decides `RING` alone, where the capacity is one. -/
theorem appendedPacket_withCfg {s : State} {c : Config} (hw : s.wcur < s.cfg.capacity)
    (hc : c.capacity = s.cfg.capacity) :
    { appendedPacket { s with cfg := c } with ring := (appendedPacket s).ring, cfg := (appendedPacket s).cfg } =
      appendedPacket s := by
  have cursor : (appendedPacket { s with cfg := c }).wcur = (appendedPacket s).wcur := by
    rw [appendedPacket_wcur hw, appendedPacket_wcur (s := { s with cfg := c }) (by rw [hc]; exact hw), hc]
  rw [appendedPacket_frame { s with cfg := c }, cursor]
  conv_rhs => rw [appendedPacket_frame s]
  simp

/-- Settles O35: a slot the packet writes has one last writer in both runs, and the two samples of that lane differ in the
sign of the angle. -/
theorem mirroringNegatesEveryAngle : Obligations.MirroringNegatesEveryAngle := by
  rintro b s t u c hp hlast hwf hstrict rfl ht hu
  obtain ⟨hw, rfl⟩ := exec_byteBody_last_next hp hlast hstrict ht
  obtain ⟨-, rfl⟩ := exec_byteBody_last_next (s := { s with cfg := { s.cfg with mirrored := !s.cfg.mirrored } })
    hp hlast hstrict hu
  refine ⟨appendedPacket_withCfg (s := bodyCompleted b s) hw rfl, fun i j hslot => ?_⟩
  obtain ⟨k, hk⟩ := exists_isLastWriter hslot
  rw [appendedPacket_read_of_isLastWriter (s := bodyCompleted b s) hw hwf hk,
    appendedPacket_read_of_isLastWriter
      (s := bodyCompleted b { s with cfg := { s.cfg with mirrored := !s.cfg.mirrored } }) hw hwf hk]
  exact ⟨packetSample_angle_not s.cfg.mirrored _ k, rfl, rfl⟩

/-! ### The flag -/

/-- R170 (a): no start angle is below 0, so no wrap is seen. -/
theorem rotcAfterCommit_zero (rotc : Bool) (rawStart : Half) : rotcAfterCommit rotc rawStart 0 = rotc := by
  simp [rotcAfterCommit, isWrap]

/-- Settles O36: a byte captured and a frame dropped leave the flag alone, and an append compares with 0. -/
theorem firstCommitNeverSetsFlag : Obligations.FirstCommitNeverSetsFlag := by
  intro b s t hp hprev h
  rw [exec_byteBody_eq, if_pos hp, acceptByte_body hp] at h
  rcases bodyByte_cases h with rfl | rfl | ⟨-, rfl⟩
  · rfl
  · rfl
  · have hzero : (bodyCompleted b s).prevStart = 0 := hprev
    rw [appendedPacket_rotc, hzero, rotcAfterCommit_zero]
    rfl

end Sys2Proof.Machine
end

section
/-! With `WCUR` a slot that exists, which the invariants give, every operation completes (R116, R148). -/

namespace Sys2Proof.Machine

theorem exec_completes {s : State} (hw : s.wcur < s.cfg.capacity) (i : Instr) : ∃ t, exec i s = .next t := by
  have accepted (b : Byte) : ∃ t, acceptByte b s = .next t :=
    (acceptByte_completes hw b).imp fun _ ⟨run, _⟩ => run
  cases i with
  | ready | snap | rpm | start | rsv5 | rsv6 | rsv7 | reset | rxFault => exact ⟨_, rfl⟩
  | rdsnap idx => rcases exec_rdsnap_cases idx s with ⟨-, he⟩ | ⟨-, he⟩ <;> exact ⟨_, he⟩
  | byteHunt b =>
    rw [exec_byteHunt_eq]
    split
    · exact accepted b
    · exact ⟨s, rfl⟩
  | byteBody b =>
    rw [exec_byteBody_eq]
    split
    · exact accepted b
    · exact ⟨s, rfl⟩
  | frame f =>
    rw [exec_frame]
    exact acceptBytes_completes hw (frameLine f)

/-- If a step faults, the operation it decoded faulted. -/
theorem step_fault {s : State} {r : Fault} (h : step s = .fault r) : ∃ i, exec i (fetch s).2 = .fault r := by
  unfold step at h
  split at h
  · cases h
  · split at h
    · exact ⟨_, h⟩
    · cases h

/-- Settles O49: the fetch keeps the invariants, and under them no operation faults. -/
theorem nothingFaultsUnderInvariant : Obligations.NothingFaultsUnderInvariant := by
  intro s hinv
  refine ⟨exec_completes hinv.wcur_lt, fun r hstep => ?_⟩
  obtain ⟨i, hfault⟩ := step_fault hstep
  obtain ⟨t, hnext⟩ := exec_completes (fetch_keeps_inv hinv).wcur_lt i
  cases hfault.symm.trans hnext

end Sys2Proof.Machine
end

section
/-! What SNAP, START and the reserved commands answer, and the state each leaves (R122, R125, R126). -/

namespace Sys2Proof.Machine

/-- Settles O15: the copy of the slots below `CAPACITY` reads there as `RING` does (`Memory.read_copyBelow`). -/
theorem snapCopiesRingAndClearsFlag : Obligations.SnapCopiesRingAndClearsFlag := fun idx s =>
  have copied (j : Nat) (hj : j < s.cfg.capacity) : (takeSnapshot s).snap.read j = s.ring.read j :=
    Memory.read_copyBelow s.ring hj
  ⟨_, _, exec_snap idx s, copied, takeSnapshot_rotc s, respond_resp _ _ _, respStatus_respWord _ _,
    respData_respWord _ _, rfl⟩

/-- R125: `PHASE` is the one field START's action can write. -/
theorem startFramer_eq (s : State) :
    startFramer s = { s with phase := if s.phase = .idle then .hunt else s.phase } := by
  unfold startFramer
  split <;> rfl

/-- Settles O19: the answer writes the response port alone, and `startFramer_eq` says what START's action writes. -/
theorem startActsOnlyFromIdle : Obligations.StartActsOnlyFromIdle := by
  intro idx s
  refine ⟨respWord .ok 0, ?_, respStatus_respWord _ _, respData_respWord _ _⟩
  rw [exec_start, startFramer_eq]
  rfl

/-- Settles O20: the three commands give one answer (`exec_rsv5` to `exec_rsv7`), and their rows of the table the codes. -/
theorem reservedCommandsAnswerErrOp : Obligations.ReservedCommandsAnswerErrOp := fun idx s =>
  ⟨respWord .errOp 0, respStatus_respWord _ _, respData_respWord _ _,
    exec_rsv5 idx s, exec_rsv6 idx s, exec_rsv7 idx s,
    Laws.TableRow.rsv5 idx, Laws.TableRow.rsv6 idx, Laws.TableRow.rsv7 idx⟩

end Sys2Proof.Machine
end

section
/-! Construction (R144), and the order in which a turn's pins take effect (R147 b). -/

namespace Sys2Proof

theorem Config.build_of_legal {n : Nat} (h : 1 ≤ n ∧ n ≤ 65536) (mirrored strict : Bool) :
    Config.build n mirrored strict = some ⟨n, mirrored, strict, h⟩ := dif_pos h

theorem Config.build_of_illegal {n : Nat} (h : ¬ (1 ≤ n ∧ n ≤ 65536)) (mirrored strict : Bool) :
    Config.build n mirrored strict = none := dif_neg h

/-- Settles O8: the two branches of `Config.build`. -/
theorem illegalCapacityIsRefused : Obligations.IllegalCapacityIsRefused := by
  intro n m st
  split_ifs with h
  · exact ⟨⟨n, m, st, h⟩, Config.build_of_legal h m st, rfl, rfl, rfl⟩
  · exact Config.build_of_illegal h m st

namespace Machine

/-- R147 (b): `rst` decides, whatever `rx_fault` is. -/
theorem decode_pins_of_rst (c : Config) (ph : Phase) (rxFault : Pin) : decode c ph (.pins 1 rxFault) = .ok .reset := rfl

theorem decode_pins_of_rxFault (c : Config) (ph : Phase) : decode c ph (.pins 0 1) = .ok .rxFault := rfl

/-- Settles O11: an asserted pin is what the turn presents (O9), and the decoder looks at `rst` first. -/
theorem resetThenFaultThenByte : Obligations.ResetThenFaultThenByte := by
  intro s ts rst rxFault hsched
  constructor
  · rintro rfl
    obtain ⟨-, runs, -⟩ := stepRunsDecodedOperation s ts .reset rfl
    exact runs 1 rxFault hsched (.inl rfl) (decode_pins_of_rst _ _ rxFault)
  · rintro rfl rfl
    obtain ⟨-, runs, -⟩ := stepRunsDecodedOperation s ts .rxFault rfl
    exact runs 0 1 hsched (.inr rfl) (decode_pins_of_rxFault _ _)

end Machine

end Sys2Proof
end

section
/-! `HALTED` (R141, R142): what each operation does there, that only a reset leaves it, and that what was being captured is
not read. -/

namespace Sys2Proof.Machine

/-! ### The operations in `HALTED` -/

/-- R141. -/
theorem exec_rxFault_eq (s : State) : exec .rxFault s = .next { s with phase := .halted } := rfl

theorem startFramer_of_halted {s : State} (hp : s.phase = .halted) : startFramer s = s := if_neg (by simp [hp])

theorem halt_of_halted {s : State} (hp : s.phase = .halted) : { s with phase := .halted } = s := by
  rw [← hp]

/-- In `HALTED` nothing but a command or a reset changes any state: no byte is accepted (R94), and the framer is halted
already (R141). -/
theorem exec_eq_self_of_halted {i : Instr} {s : State} (hp : s.phase = .halted) (hcons : i.agent ≠ .cons)
    (hreset : i ≠ .reset) : exec i s = .next s := by
  cases i with
  | ready | snap | rdsnap | rpm | start | rsv5 | rsv6 | rsv7 => exact absurd rfl hcons
  | byteHunt b => rw [exec_byteHunt_eq, if_neg (by simp [hp])]
  | byteBody b => rw [exec_byteBody_eq, if_neg (by simp [hp])]
  | frame f => rw [exec_frame, acceptBytes_waits (.inr hp)]
  | reset => exact absurd rfl hreset
  | rxFault => rw [exec_rxFault_eq, halt_of_halted hp]

/-- R142: every operation but reset completes in `HALTED`, with all the framer owns as it stood. -/
theorem exec_completes_of_halted {i : Instr} {s : State} (hp : s.phase = .halted) (hreset : i ≠ .reset) :
    ∃ t, exec i s = .next t ∧ t.framerData = s.framerData := by
  by_cases hcons : i.agent = .cons
  · obtain ⟨t, w, run, -, keeps, -⟩ := commandsCompleteAndKeepFramerData i s hcons
    exact ⟨t, run, keeps⟩
  · exact ⟨s, exec_eq_self_of_halted hp hcons hreset, rfl⟩

/-- R142: of the commands START alone writes the phase, and not in `HALTED`. -/
theorem exec_phase_of_halted {i : Instr} {s t : State} (h : exec i s = .next t) (hp : s.phase = .halted)
    (hreset : i ≠ .reset) : t.phase = .halted := by
  by_cases hcons : i.agent = .cons
  · cases exec_effect h with
    | answered | snapped => exact hp
    | started => rw [startFramer_of_halted hp]; exact hp
    | disabled _ hprod => rw [hprod] at hcons; cases hcons
    | searched | captured | framed | wasReset | halted => cases hcons
  · cases h.symm.trans (exec_eq_self_of_halted hp hcons hreset)
    exact hp

/-- Settles O42: the operations but reset by the three lemmas above; START and `rx_fault` find nothing to write. -/
theorem haltedUntilReset : Obligations.HaltedUntilReset := by
  intro i s hp
  refine ⟨State.inReady_eq_false (.inr hp), fun hreset => ?stays, ?leaves⟩
  case stays =>
    obtain ⟨t, run, keeps⟩ := exec_completes_of_halted hp hreset
    refine ⟨t, run, exec_phase_of_halted run hp hreset, keeps, ?start, ?rxFault⟩
    case start =>
      rintro idx rfl
      rw [exec_start, startFramer_of_halted hp] at run
      cases run
      rfl
    case rxFault =>
      rintro rfl
      cases run.symm.trans (exec_eq_self_of_halted hp (by decide) hreset)
      rfl
  case leaves =>
    rintro rfl
    exact ⟨_, exec_reset s, resetBlock_phase s⟩

/-! ### What a turn presents where no byte is accepted -/

/-- The port word of the next turn, where the FRAMER takes no byte: a command, or an asserted pin. -/
def wordWithoutBytes : List Turn → Option PortWord
  | .cmd w :: _ => some (.cmd w)
  | .cycle rst rxFault :: _ => if rst = 1 ∨ rxFault = 1 then some (.pins rst rxFault) else none
  | .frame :: _ => none
  | [] => none

/-- R67, R94: in `IDLE` and `HALTED` the fetch looks at the schedule alone. -/
theorem fetch_of_waits {s : State} (hp : s.phase = .idle ∨ s.phase = .halted) :
    fetch s = (wordWithoutBytes s.sched, beginStep s.sched.tail s) := by
  have notReady (ts : List Turn) : (beginStep ts s).inReady = false := State.inReady_eq_false hp
  cases hsched : s.sched with
  | nil => simp only [fetch, hsched]; rfl
  | cons turn ts =>
    rw [fetch_of_sched hsched]
    cases turn with
    | cmd w => rfl
    | cycle rst rxFault =>
      by_cases hpins : rst = 1 ∨ rxFault = 1
      · simp only [fetchTurn, fetchCycle_of_asserted hpins, wordWithoutBytes, if_pos hpins, List.tail_cons]
      · simp only [fetchTurn, fetchCycle, wordWithoutBytes, if_neg hpins, List.tail_cons,
          fetchByte_of_waits (.inl (notReady ts))]
    | frame => exact fetchFrame_of_waits (.inl (notReady ts))

theorem sched_of_wordWithoutBytes_pins {sched : List Turn} {rst rxFault : Pin}
    (h : wordWithoutBytes sched = some (.pins rst rxFault)) : ∃ ts, sched = .cycle rst rxFault :: ts := by
  unfold wordWithoutBytes at h
  split at h
  · cases h
  · split at h <;> cases h
    exact ⟨_, rfl⟩
  · cases h
  · cases h

/-- R71: the command port carries commands alone. -/
theorem agent_of_decode_cmd {c : Config} {ph : Phase} {w : CmdWord} {i : Instr} (h : decode c ph (.cmd w) = .ok i) :
    i.agent = .cons := by
  change decodeCmd c w = _ at h
  unfold decodeCmd at h
  split at h <;> cases h
  exact commandOf_agent _ _

/-- R68, R161: `rst` alone is decoded as RESET. -/
theorem pins_of_decode_reset {c : Config} {ph : Phase} {w : PortWord} (h : decode c ph w = .ok .reset) :
    ∃ rxFault, w = .pins 1 rxFault := by
  cases w with
  | cmd w => nomatch agent_of_decode_cmd h
  | byte b => cases ph <;> cases h
  | pins rst rxFault =>
    change decodePins rst rxFault = _ at h
    unfold decodePins at h
    split at h
    · rename_i hrst
      exact ⟨rxFault, by rw [hrst]⟩
    · split at h <;> cases h
  | frame line => cases h.symm.trans (decode_frame_of_isFrameLine c ph (isFrameLine_of_decode h))

/-- Settles O43: a wait and any operation but RESET stay, and RESET was decoded from the pins of the turn. -/
theorem onlyResetLeavesHalted : Obligations.OnlyResetLeavesHalted := by
  intro s t hp h
  have hfetch := fetch_of_waits (.inr hp)
  rcases step_next h with ⟨-, rfl⟩ | ⟨w, i, hw, hdecode, run⟩
  · rw [hfetch]
    exact .inl hp
  · rw [hfetch] at hw run
    by_cases hreset : i = .reset
    · subst hreset
      obtain ⟨rxFault, rfl⟩ := pins_of_decode_reset hdecode
      obtain ⟨ts, hsched⟩ := sched_of_wordWithoutBytes_pins hw
      cases run
      exact .inr ⟨rxFault, ts, hsched, rfl⟩
    · exact .inl (exec_phase_of_halted run hp hreset)

/-! ### What was being captured is not read -/

/-- The state with another match position, body byte count and `BODYREG`. -/
def State.withCapture (m : Fin 4) (n : Fin 32) (v : Vector Byte 32) (s : State) : State :=
  { s with mpos := m, bcnt := n, bodyreg := v }

/-- What an operation or a step from `HALTED` answers with another capture: the capture is kept, or gone where it left
`HALTED`. -/
def haltedWithCapture (m : Fin 4) (n : Fin 32) (v : Vector Byte 32) : Out → Out
  | .next t => .next (if t.phase = .halted then t.withCapture m n v else t)
  | .fault r => .fault r
  | .refused r => .refused r

section
variable (m : Fin 4) (n : Fin 32) (v : Vector Byte 32)

@[simp] theorem State.withCapture_phase (s : State) : (s.withCapture m n v).phase = s.phase := rfl
@[simp] theorem State.withCapture_cfg (s : State) : (s.withCapture m n v).cfg = s.cfg := rfl

theorem haltedWithCapture_next {t : State} (hp : t.phase = .halted) :
    haltedWithCapture m n v (.next t) = .next (t.withCapture m n v) := congrArg _ (if_pos hp)

theorem startFramer_withCapture (s : State) :
    startFramer (s.withCapture m n v) = (startFramer s).withCapture m n v :=
  (apply_ite (State.withCapture m n v) (s.phase = .idle) { s with phase := .hunt } s).symm

theorem exec_cons_withCapture {i : Instr} {s t : State} (hcons : i.agent = .cons) (h : exec i s = .next t) :
    exec i (s.withCapture m n v) = .next (t.withCapture m n v) := by
  cases i with
  | ready | snap | rpm | rsv5 | rsv6 | rsv7 => cases h; rfl
  | rdsnap idx =>
    rcases Nat.lt_or_ge idx.toNat s.cfg.capacity with hidx | hidx
    · cases (exec_rdsnap_of_lt hidx).symm.trans h
      exact exec_rdsnap_of_lt (s := s.withCapture m n v) hidx
    · cases (exec_rdsnap_of_le hidx).symm.trans h
      exact exec_rdsnap_of_le (s := s.withCapture m n v) hidx
  | start idx =>
    cases h
    rw [exec_start, startFramer_withCapture]
    rfl
  | byteHunt | byteBody | frame | reset | rxFault => cases hcons

/-- R33, R160: a reset looks at nothing captured; a command neither; any other operation answers the state as it stood. -/
theorem exec_withCapture_of_halted {s : State} (hp : s.phase = .halted) (i : Instr) :
    exec i (s.withCapture m n v) = haltedWithCapture m n v (exec i s) := by
  by_cases hreset : i = .reset
  · subst hreset
    rfl
  · obtain ⟨t, run, -⟩ := exec_completes_of_halted hp hreset
    rw [run, haltedWithCapture_next m n v (exec_phase_of_halted run hp hreset)]
    by_cases hcons : i.agent = .cons
    · exact exec_cons_withCapture m n v hcons run
    · cases run.symm.trans (exec_eq_self_of_halted hp hcons hreset)
      exact exec_eq_self_of_halted (s := s.withCapture m n v) hp hcons hreset

theorem step_withCapture_of_halted {s : State} (hp : s.phase = .halted) :
    step (s.withCapture m n v) = haltedWithCapture m n v (step s) := by
  have hfetch : fetch (s.withCapture m n v) =
      (wordWithoutBytes s.sched, (beginStep s.sched.tail s).withCapture m n v) := fetch_of_waits (.inr hp)
  simp only [step, hfetch, fetch_of_waits (.inr hp), State.withCapture_cfg, State.withCapture_phase]
  cases wordWithoutBytes s.sched with
  | none => exact (haltedWithCapture_next m n v (t := beginStep s.sched.tail s) hp).symm
  | some w =>
    dsimp only
    cases decode s.cfg s.phase w with
    | ok i => exact exec_withCapture_of_halted m n v (s := beginStep s.sched.tail s) hp i
    | error e => rfl

end

/-- Settles O41: the first clause is R141's equation, the second `haltedWithCapture` outcome by outcome. -/
theorem rxFaultHaltsFramer : Obligations.RxFaultHaltsFramer := by
  refine ⟨exec_rxFault_eq, fun s m n body hp => ?_⟩
  have same := step_withCapture_of_halted m n body hp
  cases hstep : step s with
  | next | fault | refused => rw [hstep] at same; exact same

end Sys2Proof.Machine
end

section
/-! What a reset writes and the commands right after it answer (R160, R165), and the static configuration (R171). -/

namespace Sys2Proof.Machine

/-- R34: only a reset changes the configuration; SNAP, which `exec_snap_cfg_of_ne` leaves out, writes other elements. -/
theorem exec_cfg_of_ne_reset {i : Instr} {s t : State} (h : exec i s = .next t) (hreset : i ≠ .reset) :
    t.cfg = s.cfg := by
  by_cases hsnap : ∃ idx, i = .snap idx
  · obtain ⟨idx, rfl⟩ := hsnap
    cases (exec_snap idx s).symm.trans h
    rw [respond_cfg, takeSnapshot_cfg]
  · exact (exec_snap_cfg_of_ne h (not_exists.1 hsnap) hreset).2

/-- Settles O53: a reset reads the inputs (`resetBlock_cfg`), and any other operation keeps the configuration. -/
theorem configurationChangesOnlyAtReset : Obligations.ConfigurationChangesOnlyAtReset := by
  intro i s t h
  split
  next hreset =>
    subst hreset
    cases (exec_reset s).symm.trans h
    exact resetBlock_cfg s
  next hreset => exact exec_cfg_of_ne_reset h hreset

theorem resetBlock_ring_read (s : State) (j : Nat) : (resetBlock s).ring.read j = ⟨0, 0, 0⟩ := Memory.read_nil j

theorem resetBlock_snap_read (s : State) (j : Nat) : (resetBlock s).snap.read j = ⟨0, 0, 0⟩ := Memory.read_nil j

/-- Settles O44: one rule of `resetBlock` per element; both stores are left empty, and so read as unlisted. -/
theorem resetRestoresEveryElement : Obligations.ResetRestoresEveryElement := fun s =>
  ⟨_, exec_reset s, resetBlock_phase s, resetBlock_mpos s, resetBlock_bcnt s, resetBlock_ring_read s, resetBlock_wcur s,
    resetBlock_rotc s, resetBlock_prevStart s, resetBlock_rpmRaw s, resetBlock_cksum s, resetBlock_snap_read s,
    resetBlock_cfg s⟩

/-- The answer of status 0 with data 0 (R72, R73), of a command that answers data which are 0. -/
theorem exec_answers_zero {i : Instr} {s : State} {d : DataWord} (run : exec i s = .next (respond .ok d s)) (hd : d = 0) :
    ∃ u w, exec i s = .next u ∧ u.resp = some w ∧ respStatus w = 0 ∧ respData w = 0 :=
  ⟨_, _, run, respond_resp _ _ _, respStatus_respWord _ _, (respData_respWord _ _).trans hd⟩

/-- R74 of a slot at its reset value. -/
theorem sampleData_zero : sampleData ⟨0, 0, 0⟩ = 0 := by decide

/-- R125: from `IDLE`, START makes the framer ready. -/
theorem startFramer_inReady_of_idle {s : State} (hp : s.phase = .idle) : (startFramer s).inReady = true :=
  (State.inReady_iff _).2 (.inl (by rw [startFramer_phase, if_pos hp]))

/-- Settles O46: READY, RPM and RDSNAP answer from elements a reset leaves 0, SNAP copies the ring it leaves empty, and
START finds the framer in `IDLE`. -/
theorem commandsAfterReset : Obligations.CommandsAfterReset := by
  intro s t idx h
  cases (exec_reset s).symm.trans h
  refine ⟨State.inReady_eq_false (.inl (resetBlock_phase s)), ?ready, ?rpm, ?snap, ?rdsnap, ?start⟩
  case ready =>
    exact exec_answers_zero (exec_ready idx _) (by rw [resetBlock_rotc, rotcData_eq, if_neg Bool.false_ne_true])
  case rpm =>
    exact exec_answers_zero (exec_rpm idx _) (by rw [resetBlock_rpmRaw]; rfl)
  case snap =>
    refine ⟨_, exec_snap idx _, fun j => ?_⟩
    rw [respond_snap, takeSnapshot_snap, resetBlock_ring]
    exact Memory.read_nil j
  case rdsnap =>
    intro hidx
    exact exec_answers_zero (exec_rdsnap_of_lt hidx) (by rw [resetBlock_snap_read, sampleData_zero])
  case start =>
    exact ⟨_, exec_start idx _, startFramer_inReady_of_idle (resetBlock_phase s)⟩

end Sys2Proof.Machine
end
